-- ==== Sys2Proof/Word.lean ====
section
/-! DEFINITION. The word types: a 32-bit register value and a byte (spec/00_scope.md R7, R9). -/

namespace Sys2Proof

/-- A 32-bit register value or register address (R7, R56). -/
abbrev Word := BitVec 32

/-- One byte of memory or scratch-pad. -/
abbrev Byte := BitVec 8

end Sys2Proof
end

