-- ==== Sys2Proof/Config.lean ====
section
/-! DEFINITION. What is fixed for a machine: the ten channels, the two regions, the parameters of
spec/00_scope.md R8, and the free values (opaque: nothing can prove what they are). -/

namespace Sys2Proof

/-- Identity of the block, as R3 names it. -/
def Config.blockName : String := "PS2-DMAC-CHAIN"

/-- Edition of the source, as R3 names it. -/
def Config.edition : String := "v7"

/-- The ten channels, in the order of their numbers 0 to 9 (R7, R15); each constructor is named after its default in
`CH_NAME` of R8 (D1). -/
inductive Chan where
  | vif0 | vif1 | gif | fromIpu | toIpu | sif0 | sif1 | sif2 | fromSpr | toSpr
deriving DecidableEq, Repr

/-- The channel's fixed identity 0 to 9 (R7, R15). -/
def Chan.num : Chan → Nat
  | .vif0 => 0
  | .vif1 => 1
  | .gif => 2
  | .fromIpu => 3
  | .toIpu => 4
  | .sif0 => 5
  | .sif1 => 6
  | .sif2 => 7
  | .fromSpr => 8
  | .toSpr => 9

theorem Chan.num_lt (c : Chan) : c.num < 10 := by cases c <;> decide

/-- All ten channels, in order. -/
def Chan.all : List Chan :=
  [.vif0, .vif1, .gif, .fromIpu, .toIpu, .sif0, .sif1, .sif2, .fromSpr, .toSpr]

/-- Direction of a channel's data: R12 (source chain, destination chain), R16, R17. -/
inductive Direction where
  | fromMemory
  | toMemory
deriving DecidableEq, Repr

/-- The two memories a tag or a transfer address can name (R35); the region bit is 0 for Memory and 1 for
ScratchPad (D7). -/
inductive Region where
  | memory
  | scratchPad
deriving DecidableEq, Repr

/-- The offsets of the registers within every channel's block, part of the parameter `REG_BASE` of R8 (R15). -/
structure ChanOffsets where
  chcr : Word
  madr : Word
  qwc : Word
  tadr : Word
  asr0 : Word
  asr1 : Word
  /-- Channels 8 and 9 only. -/
  sadr : Word
deriving DecidableEq, Repr

/-- The parameter `REG_BASE` of R8: where each channel's register block and each global register stands and the offsets
within a block (R15), the five addresses that are refused included. -/
structure RegBase where
  chan : Vector Word 10
  offsets : ChanOffsets
  dCtrl : Word
  dStat : Word
  dPcr : Word
  dStadr : Word
  dSqwc : Word
  dRbsr : Word
  dRbor : Word
  dEnabler : Word
  dEnablew : Word
deriving DecidableEq, Repr

/-- The parameters that the sources do not fix (R8), each a field. -/
structure Config where
  /-- `NCH`: the number of channels; a channel numbered `nch` or above has no registers at the host port
  (notes/assumptions/22.md). -/
  nch : Nat
  /-- `CH_NAME`: the peripheral of each channel, by channel number (D1); a name, which no rule reads. -/
  chName : Vector String 10
  /-- `MEM_SIZE`: bytes of main memory that the tag reader reaches. -/
  memSize : Nat
  /-- `SPR_SIZE`: bytes of scratch-pad. -/
  sprSize : Nat
  /-- `CIS_ON_COMPLETION` (D24). -/
  cisOnCompletion : Bool
  /-- `IRQ_ENDS_CHAIN` (D25). -/
  irqEndsChain : Bool
  /-- `FIXED_DIR`, by channel number; `none` where CHCR.DIR selects (R17, D4). -/
  fixedDir : Vector (Option Direction) 10
  /-- `REG_BASE` (R15, D9). -/
  regs : RegBase
deriving DecidableEq, Repr

/-- `FIXED_DIR(c)` of R17. -/
def Config.fixedDirOf (g : Config) (c : Chan) : Option Direction := g.fixedDir[c.num]'c.num_lt

/-- `CH_NAME(c)` of R8. -/
def Config.chNameOf (g : Config) (c : Chan) : String := g.chName[c.num]'c.num_lt

/-- The draw that a host read of an Undefined register returns (R33, R130): a FREE VALUE, a new one for each draw.
DESIGN CHOICE on its form, notes/assumptions/2.md. -/
opaque Config.undefinedRead : Nat → Word

/-- Which enabled step the multiplexer takes when no agent's turn is written in the schedule (R117): a FREE VALUE.
DESIGN CHOICE on its form, notes/assumptions/6.md. -/
opaque Config.muxPick : Nat → Nat

/-- How many quadwords such a step moves when it is a slice (R88 `choose n`): a FREE VALUE, brought into the range
that R88 gives. DESIGN CHOICE on its form, notes/assumptions/6.md. -/
opaque Config.slicePick : Nat → Nat

end Sys2Proof
end

