-- ==== Sys2Proof/Syntax.lean ====
section
/-! DEFINITION. The syntax: the nine tag kinds with their fields, the host accesses with their registers, and the one
inductive `Instr` with a constructor for every row of spec/opcode_table.json. -/

namespace Sys2Proof

/-- The nine kinds of a tag (R52, R59, R63). -/
inductive TagKind where
  | referenceEnd | continueStall | continue_ | next | reference | referenceStall | call | return_ | end_
deriving DecidableEq, Repr

/-- The decoded view of a tag (R59): `pce` is kept as its raw code (R53, R62), `addr` is a byte address that is not
masked (R66), `spr` is the region selector, 1 for ScratchPad. -/
structure DmaTag where
  qwc : BitVec 16
  pce : BitVec 2
  kind : TagKind
  irq : Bool
  addr : BitVec 31
  spr : Bool
deriving DecidableEq, Repr

/-- The operands of a tag as an instruction: the fields of R50 but for the kind, which is the constructor. `rsv` is
raw[25:16]: no transition reads it as a field (R68), but R72 copies raw[31:16] whole into CHCR.TAG.
DEDUCED, notes/assumptions/13.md. -/
structure TagFields where
  qwc : BitVec 16
  rsv : BitVec 10
  pce : BitVec 2
  irq : Bool
  addr : BitVec 31
  spr : Bool
deriving DecidableEq, Repr

/-- The registers that every channel has (R13, R15). -/
inductive ChanReg where
  | chcr | madr | qwc | tadr | asr0 | asr1
deriving DecidableEq, Repr

/-- Every register name of R15: the channel registers, SADR of channels 8 and 9 only, the global registers, and the
five that are refused. -/
inductive RegName where
  | chan (c : Chan) (r : ChanReg)
  | sadr8 | sadr9
  | dCtrl | dStat | dPcr | dStadr
  | dSqwc | dRbsr | dRbor | dEnabler | dEnablew
deriving DecidableEq, Repr

/-- A host access reads, or writes a 32-bit value (R56). -/
inductive AccessKind where
  | read
  | write (v : Word)
deriving DecidableEq, Repr

/-- The widths a host could ask for; only 32 bits is admitted (R126). -/
inductive AccessWidth where
  | w8 | w16 | w32 | w64 | w128
deriving DecidableEq, Repr

/-- A host access: an address, a width and, for a write, a value (R56). -/
structure HostAccess where
  addr : Word
  width : AccessWidth
  kind : AccessKind
deriving DecidableEq, Repr

/-- One constructor for each row of spec/opcode_table.json, in the table's order: the nine tag kinds (R75 to R83), a
read and a write of every register (R128 to R135), and an access to each register that is refused (R127). -/
inductive Instr where
  | refe (f : TagFields)
  | cnts (f : TagFields)
  | cnt (f : TagFields)
  | next (f : TagFields)
  | ref (f : TagFields)
  | refs (f : TagFields)
  | call (f : TagFields)
  | ret (f : TagFields)
  | endTag (f : TagFields)
  | readD0Chcr
  | writeD0Chcr (v : Word)
  | readD0Madr
  | writeD0Madr (v : Word)
  | readD0Qwc
  | writeD0Qwc (v : Word)
  | readD0Tadr
  | writeD0Tadr (v : Word)
  | readD0Asr0
  | writeD0Asr0 (v : Word)
  | readD0Asr1
  | writeD0Asr1 (v : Word)
  | readD1Chcr
  | writeD1Chcr (v : Word)
  | readD1Madr
  | writeD1Madr (v : Word)
  | readD1Qwc
  | writeD1Qwc (v : Word)
  | readD1Tadr
  | writeD1Tadr (v : Word)
  | readD1Asr0
  | writeD1Asr0 (v : Word)
  | readD1Asr1
  | writeD1Asr1 (v : Word)
  | readD2Chcr
  | writeD2Chcr (v : Word)
  | readD2Madr
  | writeD2Madr (v : Word)
  | readD2Qwc
  | writeD2Qwc (v : Word)
  | readD2Tadr
  | writeD2Tadr (v : Word)
  | readD2Asr0
  | writeD2Asr0 (v : Word)
  | readD2Asr1
  | writeD2Asr1 (v : Word)
  | readD3Chcr
  | writeD3Chcr (v : Word)
  | readD3Madr
  | writeD3Madr (v : Word)
  | readD3Qwc
  | writeD3Qwc (v : Word)
  | readD3Tadr
  | writeD3Tadr (v : Word)
  | readD3Asr0
  | writeD3Asr0 (v : Word)
  | readD3Asr1
  | writeD3Asr1 (v : Word)
  | readD4Chcr
  | writeD4Chcr (v : Word)
  | readD4Madr
  | writeD4Madr (v : Word)
  | readD4Qwc
  | writeD4Qwc (v : Word)
  | readD4Tadr
  | writeD4Tadr (v : Word)
  | readD4Asr0
  | writeD4Asr0 (v : Word)
  | readD4Asr1
  | writeD4Asr1 (v : Word)
  | readD5Chcr
  | writeD5Chcr (v : Word)
  | readD5Madr
  | writeD5Madr (v : Word)
  | readD5Qwc
  | writeD5Qwc (v : Word)
  | readD5Tadr
  | writeD5Tadr (v : Word)
  | readD5Asr0
  | writeD5Asr0 (v : Word)
  | readD5Asr1
  | writeD5Asr1 (v : Word)
  | readD6Chcr
  | writeD6Chcr (v : Word)
  | readD6Madr
  | writeD6Madr (v : Word)
  | readD6Qwc
  | writeD6Qwc (v : Word)
  | readD6Tadr
  | writeD6Tadr (v : Word)
  | readD6Asr0
  | writeD6Asr0 (v : Word)
  | readD6Asr1
  | writeD6Asr1 (v : Word)
  | readD7Chcr
  | writeD7Chcr (v : Word)
  | readD7Madr
  | writeD7Madr (v : Word)
  | readD7Qwc
  | writeD7Qwc (v : Word)
  | readD7Tadr
  | writeD7Tadr (v : Word)
  | readD7Asr0
  | writeD7Asr0 (v : Word)
  | readD7Asr1
  | writeD7Asr1 (v : Word)
  | readD8Chcr
  | writeD8Chcr (v : Word)
  | readD8Madr
  | writeD8Madr (v : Word)
  | readD8Qwc
  | writeD8Qwc (v : Word)
  | readD8Tadr
  | writeD8Tadr (v : Word)
  | readD8Asr0
  | writeD8Asr0 (v : Word)
  | readD8Asr1
  | writeD8Asr1 (v : Word)
  | readD8Sadr
  | writeD8Sadr (v : Word)
  | readD9Chcr
  | writeD9Chcr (v : Word)
  | readD9Madr
  | writeD9Madr (v : Word)
  | readD9Qwc
  | writeD9Qwc (v : Word)
  | readD9Tadr
  | writeD9Tadr (v : Word)
  | readD9Asr0
  | writeD9Asr0 (v : Word)
  | readD9Asr1
  | writeD9Asr1 (v : Word)
  | readD9Sadr
  | writeD9Sadr (v : Word)
  | readDCtrl
  | writeDCtrl (v : Word)
  | readDStat
  | writeDStat (v : Word)
  | readDPcr
  | writeDPcr (v : Word)
  | readDStadr
  | writeDStadr (v : Word)
  | accessDSqwcRefused (a : AccessKind)
  | accessDRbsrRefused (a : AccessKind)
  | accessDRborRefused (a : AccessKind)
  | accessDEnablerRefused (a : AccessKind)
  | accessDEnablewRefused (a : AccessKind)
deriving DecidableEq, Repr

/-- What an instruction is an instance of: a tag of some kind, or an access to some register. -/
inductive Operation where
  | tag (k : TagKind) (f : TagFields)
  | access (r : RegName) (a : AccessKind)
deriving DecidableEq, Repr

/-- The operation an instruction is. -/
def Instr.operation : Instr → Operation
  | .refe f => .tag .referenceEnd f
  | .cnts f => .tag .continueStall f
  | .cnt f => .tag .continue_ f
  | .next f => .tag .next f
  | .ref f => .tag .reference f
  | .refs f => .tag .referenceStall f
  | .call f => .tag .call f
  | .ret f => .tag .return_ f
  | .endTag f => .tag .end_ f
  | .readD0Chcr => .access (.chan .vif0 .chcr) .read
  | .writeD0Chcr v => .access (.chan .vif0 .chcr) (.write v)
  | .readD0Madr => .access (.chan .vif0 .madr) .read
  | .writeD0Madr v => .access (.chan .vif0 .madr) (.write v)
  | .readD0Qwc => .access (.chan .vif0 .qwc) .read
  | .writeD0Qwc v => .access (.chan .vif0 .qwc) (.write v)
  | .readD0Tadr => .access (.chan .vif0 .tadr) .read
  | .writeD0Tadr v => .access (.chan .vif0 .tadr) (.write v)
  | .readD0Asr0 => .access (.chan .vif0 .asr0) .read
  | .writeD0Asr0 v => .access (.chan .vif0 .asr0) (.write v)
  | .readD0Asr1 => .access (.chan .vif0 .asr1) .read
  | .writeD0Asr1 v => .access (.chan .vif0 .asr1) (.write v)
  | .readD1Chcr => .access (.chan .vif1 .chcr) .read
  | .writeD1Chcr v => .access (.chan .vif1 .chcr) (.write v)
  | .readD1Madr => .access (.chan .vif1 .madr) .read
  | .writeD1Madr v => .access (.chan .vif1 .madr) (.write v)
  | .readD1Qwc => .access (.chan .vif1 .qwc) .read
  | .writeD1Qwc v => .access (.chan .vif1 .qwc) (.write v)
  | .readD1Tadr => .access (.chan .vif1 .tadr) .read
  | .writeD1Tadr v => .access (.chan .vif1 .tadr) (.write v)
  | .readD1Asr0 => .access (.chan .vif1 .asr0) .read
  | .writeD1Asr0 v => .access (.chan .vif1 .asr0) (.write v)
  | .readD1Asr1 => .access (.chan .vif1 .asr1) .read
  | .writeD1Asr1 v => .access (.chan .vif1 .asr1) (.write v)
  | .readD2Chcr => .access (.chan .gif .chcr) .read
  | .writeD2Chcr v => .access (.chan .gif .chcr) (.write v)
  | .readD2Madr => .access (.chan .gif .madr) .read
  | .writeD2Madr v => .access (.chan .gif .madr) (.write v)
  | .readD2Qwc => .access (.chan .gif .qwc) .read
  | .writeD2Qwc v => .access (.chan .gif .qwc) (.write v)
  | .readD2Tadr => .access (.chan .gif .tadr) .read
  | .writeD2Tadr v => .access (.chan .gif .tadr) (.write v)
  | .readD2Asr0 => .access (.chan .gif .asr0) .read
  | .writeD2Asr0 v => .access (.chan .gif .asr0) (.write v)
  | .readD2Asr1 => .access (.chan .gif .asr1) .read
  | .writeD2Asr1 v => .access (.chan .gif .asr1) (.write v)
  | .readD3Chcr => .access (.chan .fromIpu .chcr) .read
  | .writeD3Chcr v => .access (.chan .fromIpu .chcr) (.write v)
  | .readD3Madr => .access (.chan .fromIpu .madr) .read
  | .writeD3Madr v => .access (.chan .fromIpu .madr) (.write v)
  | .readD3Qwc => .access (.chan .fromIpu .qwc) .read
  | .writeD3Qwc v => .access (.chan .fromIpu .qwc) (.write v)
  | .readD3Tadr => .access (.chan .fromIpu .tadr) .read
  | .writeD3Tadr v => .access (.chan .fromIpu .tadr) (.write v)
  | .readD3Asr0 => .access (.chan .fromIpu .asr0) .read
  | .writeD3Asr0 v => .access (.chan .fromIpu .asr0) (.write v)
  | .readD3Asr1 => .access (.chan .fromIpu .asr1) .read
  | .writeD3Asr1 v => .access (.chan .fromIpu .asr1) (.write v)
  | .readD4Chcr => .access (.chan .toIpu .chcr) .read
  | .writeD4Chcr v => .access (.chan .toIpu .chcr) (.write v)
  | .readD4Madr => .access (.chan .toIpu .madr) .read
  | .writeD4Madr v => .access (.chan .toIpu .madr) (.write v)
  | .readD4Qwc => .access (.chan .toIpu .qwc) .read
  | .writeD4Qwc v => .access (.chan .toIpu .qwc) (.write v)
  | .readD4Tadr => .access (.chan .toIpu .tadr) .read
  | .writeD4Tadr v => .access (.chan .toIpu .tadr) (.write v)
  | .readD4Asr0 => .access (.chan .toIpu .asr0) .read
  | .writeD4Asr0 v => .access (.chan .toIpu .asr0) (.write v)
  | .readD4Asr1 => .access (.chan .toIpu .asr1) .read
  | .writeD4Asr1 v => .access (.chan .toIpu .asr1) (.write v)
  | .readD5Chcr => .access (.chan .sif0 .chcr) .read
  | .writeD5Chcr v => .access (.chan .sif0 .chcr) (.write v)
  | .readD5Madr => .access (.chan .sif0 .madr) .read
  | .writeD5Madr v => .access (.chan .sif0 .madr) (.write v)
  | .readD5Qwc => .access (.chan .sif0 .qwc) .read
  | .writeD5Qwc v => .access (.chan .sif0 .qwc) (.write v)
  | .readD5Tadr => .access (.chan .sif0 .tadr) .read
  | .writeD5Tadr v => .access (.chan .sif0 .tadr) (.write v)
  | .readD5Asr0 => .access (.chan .sif0 .asr0) .read
  | .writeD5Asr0 v => .access (.chan .sif0 .asr0) (.write v)
  | .readD5Asr1 => .access (.chan .sif0 .asr1) .read
  | .writeD5Asr1 v => .access (.chan .sif0 .asr1) (.write v)
  | .readD6Chcr => .access (.chan .sif1 .chcr) .read
  | .writeD6Chcr v => .access (.chan .sif1 .chcr) (.write v)
  | .readD6Madr => .access (.chan .sif1 .madr) .read
  | .writeD6Madr v => .access (.chan .sif1 .madr) (.write v)
  | .readD6Qwc => .access (.chan .sif1 .qwc) .read
  | .writeD6Qwc v => .access (.chan .sif1 .qwc) (.write v)
  | .readD6Tadr => .access (.chan .sif1 .tadr) .read
  | .writeD6Tadr v => .access (.chan .sif1 .tadr) (.write v)
  | .readD6Asr0 => .access (.chan .sif1 .asr0) .read
  | .writeD6Asr0 v => .access (.chan .sif1 .asr0) (.write v)
  | .readD6Asr1 => .access (.chan .sif1 .asr1) .read
  | .writeD6Asr1 v => .access (.chan .sif1 .asr1) (.write v)
  | .readD7Chcr => .access (.chan .sif2 .chcr) .read
  | .writeD7Chcr v => .access (.chan .sif2 .chcr) (.write v)
  | .readD7Madr => .access (.chan .sif2 .madr) .read
  | .writeD7Madr v => .access (.chan .sif2 .madr) (.write v)
  | .readD7Qwc => .access (.chan .sif2 .qwc) .read
  | .writeD7Qwc v => .access (.chan .sif2 .qwc) (.write v)
  | .readD7Tadr => .access (.chan .sif2 .tadr) .read
  | .writeD7Tadr v => .access (.chan .sif2 .tadr) (.write v)
  | .readD7Asr0 => .access (.chan .sif2 .asr0) .read
  | .writeD7Asr0 v => .access (.chan .sif2 .asr0) (.write v)
  | .readD7Asr1 => .access (.chan .sif2 .asr1) .read
  | .writeD7Asr1 v => .access (.chan .sif2 .asr1) (.write v)
  | .readD8Chcr => .access (.chan .fromSpr .chcr) .read
  | .writeD8Chcr v => .access (.chan .fromSpr .chcr) (.write v)
  | .readD8Madr => .access (.chan .fromSpr .madr) .read
  | .writeD8Madr v => .access (.chan .fromSpr .madr) (.write v)
  | .readD8Qwc => .access (.chan .fromSpr .qwc) .read
  | .writeD8Qwc v => .access (.chan .fromSpr .qwc) (.write v)
  | .readD8Tadr => .access (.chan .fromSpr .tadr) .read
  | .writeD8Tadr v => .access (.chan .fromSpr .tadr) (.write v)
  | .readD8Asr0 => .access (.chan .fromSpr .asr0) .read
  | .writeD8Asr0 v => .access (.chan .fromSpr .asr0) (.write v)
  | .readD8Asr1 => .access (.chan .fromSpr .asr1) .read
  | .writeD8Asr1 v => .access (.chan .fromSpr .asr1) (.write v)
  | .readD8Sadr => .access .sadr8 .read
  | .writeD8Sadr v => .access .sadr8 (.write v)
  | .readD9Chcr => .access (.chan .toSpr .chcr) .read
  | .writeD9Chcr v => .access (.chan .toSpr .chcr) (.write v)
  | .readD9Madr => .access (.chan .toSpr .madr) .read
  | .writeD9Madr v => .access (.chan .toSpr .madr) (.write v)
  | .readD9Qwc => .access (.chan .toSpr .qwc) .read
  | .writeD9Qwc v => .access (.chan .toSpr .qwc) (.write v)
  | .readD9Tadr => .access (.chan .toSpr .tadr) .read
  | .writeD9Tadr v => .access (.chan .toSpr .tadr) (.write v)
  | .readD9Asr0 => .access (.chan .toSpr .asr0) .read
  | .writeD9Asr0 v => .access (.chan .toSpr .asr0) (.write v)
  | .readD9Asr1 => .access (.chan .toSpr .asr1) .read
  | .writeD9Asr1 v => .access (.chan .toSpr .asr1) (.write v)
  | .readD9Sadr => .access .sadr9 .read
  | .writeD9Sadr v => .access .sadr9 (.write v)
  | .readDCtrl => .access .dCtrl .read
  | .writeDCtrl v => .access .dCtrl (.write v)
  | .readDStat => .access .dStat .read
  | .writeDStat v => .access .dStat (.write v)
  | .readDPcr => .access .dPcr .read
  | .writeDPcr v => .access .dPcr (.write v)
  | .readDStadr => .access .dStadr .read
  | .writeDStadr v => .access .dStadr (.write v)
  | .accessDSqwcRefused a => .access .dSqwc a
  | .accessDRbsrRefused a => .access .dRbsr a
  | .accessDRborRefused a => .access .dRbor a
  | .accessDEnablerRefused a => .access .dEnabler a
  | .accessDEnablewRefused a => .access .dEnablew a

/-- The tag instruction of a kind. -/
def Instr.ofTag (f : TagFields) : TagKind → Instr
  | .referenceEnd => .refe f
  | .continueStall => .cnts f
  | .continue_ => .cnt f
  | .next => .next f
  | .reference => .ref f
  | .referenceStall => .refs f
  | .call => .call f
  | .return_ => .ret f
  | .end_ => .endTag f

/-- The read of a channel register. -/
def Instr.chanRead : Chan → ChanReg → Instr
  | .vif0, .chcr => .readD0Chcr
  | .vif0, .madr => .readD0Madr
  | .vif0, .qwc => .readD0Qwc
  | .vif0, .tadr => .readD0Tadr
  | .vif0, .asr0 => .readD0Asr0
  | .vif0, .asr1 => .readD0Asr1
  | .vif1, .chcr => .readD1Chcr
  | .vif1, .madr => .readD1Madr
  | .vif1, .qwc => .readD1Qwc
  | .vif1, .tadr => .readD1Tadr
  | .vif1, .asr0 => .readD1Asr0
  | .vif1, .asr1 => .readD1Asr1
  | .gif, .chcr => .readD2Chcr
  | .gif, .madr => .readD2Madr
  | .gif, .qwc => .readD2Qwc
  | .gif, .tadr => .readD2Tadr
  | .gif, .asr0 => .readD2Asr0
  | .gif, .asr1 => .readD2Asr1
  | .fromIpu, .chcr => .readD3Chcr
  | .fromIpu, .madr => .readD3Madr
  | .fromIpu, .qwc => .readD3Qwc
  | .fromIpu, .tadr => .readD3Tadr
  | .fromIpu, .asr0 => .readD3Asr0
  | .fromIpu, .asr1 => .readD3Asr1
  | .toIpu, .chcr => .readD4Chcr
  | .toIpu, .madr => .readD4Madr
  | .toIpu, .qwc => .readD4Qwc
  | .toIpu, .tadr => .readD4Tadr
  | .toIpu, .asr0 => .readD4Asr0
  | .toIpu, .asr1 => .readD4Asr1
  | .sif0, .chcr => .readD5Chcr
  | .sif0, .madr => .readD5Madr
  | .sif0, .qwc => .readD5Qwc
  | .sif0, .tadr => .readD5Tadr
  | .sif0, .asr0 => .readD5Asr0
  | .sif0, .asr1 => .readD5Asr1
  | .sif1, .chcr => .readD6Chcr
  | .sif1, .madr => .readD6Madr
  | .sif1, .qwc => .readD6Qwc
  | .sif1, .tadr => .readD6Tadr
  | .sif1, .asr0 => .readD6Asr0
  | .sif1, .asr1 => .readD6Asr1
  | .sif2, .chcr => .readD7Chcr
  | .sif2, .madr => .readD7Madr
  | .sif2, .qwc => .readD7Qwc
  | .sif2, .tadr => .readD7Tadr
  | .sif2, .asr0 => .readD7Asr0
  | .sif2, .asr1 => .readD7Asr1
  | .fromSpr, .chcr => .readD8Chcr
  | .fromSpr, .madr => .readD8Madr
  | .fromSpr, .qwc => .readD8Qwc
  | .fromSpr, .tadr => .readD8Tadr
  | .fromSpr, .asr0 => .readD8Asr0
  | .fromSpr, .asr1 => .readD8Asr1
  | .toSpr, .chcr => .readD9Chcr
  | .toSpr, .madr => .readD9Madr
  | .toSpr, .qwc => .readD9Qwc
  | .toSpr, .tadr => .readD9Tadr
  | .toSpr, .asr0 => .readD9Asr0
  | .toSpr, .asr1 => .readD9Asr1

/-- The write of a channel register. -/
def Instr.chanWrite (v : Word) : Chan → ChanReg → Instr
  | .vif0, .chcr => .writeD0Chcr v
  | .vif0, .madr => .writeD0Madr v
  | .vif0, .qwc => .writeD0Qwc v
  | .vif0, .tadr => .writeD0Tadr v
  | .vif0, .asr0 => .writeD0Asr0 v
  | .vif0, .asr1 => .writeD0Asr1 v
  | .vif1, .chcr => .writeD1Chcr v
  | .vif1, .madr => .writeD1Madr v
  | .vif1, .qwc => .writeD1Qwc v
  | .vif1, .tadr => .writeD1Tadr v
  | .vif1, .asr0 => .writeD1Asr0 v
  | .vif1, .asr1 => .writeD1Asr1 v
  | .gif, .chcr => .writeD2Chcr v
  | .gif, .madr => .writeD2Madr v
  | .gif, .qwc => .writeD2Qwc v
  | .gif, .tadr => .writeD2Tadr v
  | .gif, .asr0 => .writeD2Asr0 v
  | .gif, .asr1 => .writeD2Asr1 v
  | .fromIpu, .chcr => .writeD3Chcr v
  | .fromIpu, .madr => .writeD3Madr v
  | .fromIpu, .qwc => .writeD3Qwc v
  | .fromIpu, .tadr => .writeD3Tadr v
  | .fromIpu, .asr0 => .writeD3Asr0 v
  | .fromIpu, .asr1 => .writeD3Asr1 v
  | .toIpu, .chcr => .writeD4Chcr v
  | .toIpu, .madr => .writeD4Madr v
  | .toIpu, .qwc => .writeD4Qwc v
  | .toIpu, .tadr => .writeD4Tadr v
  | .toIpu, .asr0 => .writeD4Asr0 v
  | .toIpu, .asr1 => .writeD4Asr1 v
  | .sif0, .chcr => .writeD5Chcr v
  | .sif0, .madr => .writeD5Madr v
  | .sif0, .qwc => .writeD5Qwc v
  | .sif0, .tadr => .writeD5Tadr v
  | .sif0, .asr0 => .writeD5Asr0 v
  | .sif0, .asr1 => .writeD5Asr1 v
  | .sif1, .chcr => .writeD6Chcr v
  | .sif1, .madr => .writeD6Madr v
  | .sif1, .qwc => .writeD6Qwc v
  | .sif1, .tadr => .writeD6Tadr v
  | .sif1, .asr0 => .writeD6Asr0 v
  | .sif1, .asr1 => .writeD6Asr1 v
  | .sif2, .chcr => .writeD7Chcr v
  | .sif2, .madr => .writeD7Madr v
  | .sif2, .qwc => .writeD7Qwc v
  | .sif2, .tadr => .writeD7Tadr v
  | .sif2, .asr0 => .writeD7Asr0 v
  | .sif2, .asr1 => .writeD7Asr1 v
  | .fromSpr, .chcr => .writeD8Chcr v
  | .fromSpr, .madr => .writeD8Madr v
  | .fromSpr, .qwc => .writeD8Qwc v
  | .fromSpr, .tadr => .writeD8Tadr v
  | .fromSpr, .asr0 => .writeD8Asr0 v
  | .fromSpr, .asr1 => .writeD8Asr1 v
  | .toSpr, .chcr => .writeD9Chcr v
  | .toSpr, .madr => .writeD9Madr v
  | .toSpr, .qwc => .writeD9Qwc v
  | .toSpr, .tadr => .writeD9Tadr v
  | .toSpr, .asr0 => .writeD9Asr0 v
  | .toSpr, .asr1 => .writeD9Asr1 v

/-- The instruction that is an access to a register. -/
def Instr.ofAccess : RegName → AccessKind → Instr
  | .chan c r, .read => Instr.chanRead c r
  | .chan c r, .write v => Instr.chanWrite v c r
  | .sadr8, .read => .readD8Sadr
  | .sadr8, .write v => .writeD8Sadr v
  | .sadr9, .read => .readD9Sadr
  | .sadr9, .write v => .writeD9Sadr v
  | .dCtrl, .read => .readDCtrl
  | .dCtrl, .write v => .writeDCtrl v
  | .dStat, .read => .readDStat
  | .dStat, .write v => .writeDStat v
  | .dPcr, .read => .readDPcr
  | .dPcr, .write v => .writeDPcr v
  | .dStadr, .read => .readDStadr
  | .dStadr, .write v => .writeDStadr v
  | .dSqwc, a => .accessDSqwcRefused a
  | .dRbsr, a => .accessDRbsrRefused a
  | .dRbor, a => .accessDRborRefused a
  | .dEnabler, a => .accessDEnablerRefused a
  | .dEnablew, a => .accessDEnablewRefused a

/-- The instruction that is an operation. -/
def Instr.ofOperation : Operation → Instr
  | .tag k f => Instr.ofTag f k
  | .access r a => Instr.ofAccess r a

end Sys2Proof
end

