-- ==== Sys2Proof/WellFormed.lean ====
section
/-! DEFINITION. Which instructions are well-formed where: a tag for the direction and the TTE bit of the channel that
fetches it (spec/40_tag_decoder.md R63, R67, R69), and the producer-side rule on the reserved bits (R50, R156). -/

namespace Sys2Proof

/-- R69: ReferenceEnd is legal only under FromMemory, ContinueStall only under ToMemory, every other kind in both
directions (R63, D50). -/
def TagKind.legalFor : TagKind → Direction → Bool
  | .referenceEnd, .fromMemory => true
  | .referenceEnd, .toMemory => false
  | .continueStall, .fromMemory => false
  | .continueStall, .toMemory => true
  | .continue_, _ => true
  | .next, _ => true
  | .reference, _ => true
  | .referenceStall, _ => true
  | .call, _ => true
  | .return_, _ => true
  | .end_, _ => true

/-- R67: the low four bits of the address are zero wherever tag-transfer is enabled, for every kind. -/
def addrLegal (addr : BitVec 31) (tte : Bool) : Bool := !tte || addr.extractLsb' 0 4 == 0#4

/-- A decoded tag that the round trip of R69 covers. -/
def DmaTag.wellFormed (t : DmaTag) (dir : Direction) (tte : Bool) : Bool :=
  t.kind.legalFor dir && addrLegal t.addr tte

/-- An instruction that decodes where a channel has direction `dir` and CHCR.TTE = `tte`. A host access has every
value of its fields (R56). -/
def Instr.wellFormed (i : Instr) (dir : Direction) (tte : Bool) : Bool :=
  match i.operation with
  | .tag k f => k.legalFor dir && addrLegal f.addr tte
  | .access _ _ => true

/-- R50, R55 (b), R156: software writes the reserved bits of a tag as zero (not enforced by the decoder). -/
def Instr.producerClean (i : Instr) : Bool :=
  match i.operation with
  | .tag _ f => f.rsv == 0#10
  | .access _ _ => true

end Sys2Proof
end

