-- ==== Sys2Proof/Decode.lean ====
section
/-! DEFINITION. The tag decoder (spec/40_tag_decoder.md R58 to R68), the register multiplexer's decoding of a host
access (R118, R126, R127), and after them the encoder (R54) and the assembler's tag of R57. -/

namespace Sys2Proof

/-- The decoder's only failure on a tag (R58), with its two causes (R136). -/
inductive MalformedTag where
  /-- R64: never taken with the 3-bit code table. -/
  | reservedKind
  /-- R67: ADDR bits 3:0 not zero with TTE = 1. -/
  | misaligned
deriving DecidableEq, Repr

/-- Why a host access is no instruction. -/
inductive AccessError where
  /-- R126: not 32 bits wide, or not at a multiple of 4. -/
  | accessForm
  /-- R127, R118: not a register address. -/
  | unmappedRegister
deriving DecidableEq, Repr

/-- Why bytes or an access are no instruction. -/
inductive DecodeError where
  /-- A tag is exactly 16 bytes (R49); the tag step always reads 16, so it never meets this.
  DESIGN CHOICE, notes/assumptions/18.md. -/
  | notSixteenBytes
  | malformed (m : MalformedTag)
  | access (e : AccessError)
deriving DecidableEq, Repr

/-! ## Bytes and the 128-bit value -/

/-- R38: the byte at the lowest address holds the least significant bits. -/
def natOfBytes : List Byte → Nat
  | [] => 0
  | b :: bs => b.toNat + 256 * natOfBytes bs

/-- `raw` of R38. -/
def rawOfBytes (bs : List Byte) : BitVec 128 := BitVec.ofNat 128 (natOfBytes bs)

/-- `k` bytes of a number, the least significant first. -/
def bytesOfNat : Nat → Nat → List Byte
  | 0, _ => []
  | k + 1, n => BitVec.ofNat 8 n :: bytesOfNat k (n / 256)

/-- The 16 bytes of a tag as memory holds them (R38). -/
def bytesOfRaw (raw : BitVec 128) : List Byte := bytesOfNat 16 raw.toNat

/-! ## The tag decoder -/

/-- `KIND` of R63; `none` is `Reserved` of R64, never taken for a 3-bit code. -/
def kindOf (id : BitVec 3) (dir : Direction) : Option TagKind :=
  match id.toNat, dir with
  | 0, .fromMemory => some .referenceEnd
  | 0, .toMemory => some .continueStall
  | 1, _ => some .continue_
  | 2, _ => some .next
  | 3, _ => some .reference
  | 4, _ => some .referenceStall
  | 5, _ => some .call
  | 6, _ => some .return_
  | 7, _ => some .end_
  | _, _ => none

/-- R60: the decoder, a pure function of the tag, the channel's direction and CHCR.TTE. -/
def decodeTag (raw : BitVec 128) (dir : Direction) (tte : Bool) : Except MalformedTag DmaTag :=
  let qwc := raw.extractLsb' 0 16
  let pce := raw.extractLsb' 26 2
  let id := raw.extractLsb' 28 3
  let irq := raw.getLsbD 31
  let addr := raw.extractLsb' 32 31
  let spr := raw.getLsbD 63
  match kindOf id dir with
  | none => .error .reservedKind
  | some kind =>
    if tte && addr.extractLsb' 0 4 != 0#4 then .error .misaligned
    else .ok ⟨qwc, pce, kind, irq, addr, spr⟩

/-- The operands an instruction keeps of a decoded tag, with raw[25:16] beside them (R72). -/
def DmaTag.fields (t : DmaTag) (rsv : BitVec 10) : TagFields := ⟨t.qwc, rsv, t.pce, t.irq, t.addr, t.spr⟩

/-- The instruction that a fetched tag is: what the tag step of R91 decodes. -/
def decodeRaw (raw : BitVec 128) (dir : Direction) (tte : Bool) : Except MalformedTag Instr :=
  match decodeTag raw dir tte with
  | .ok t => .ok (Instr.ofTag (t.fields (raw.extractLsb' 16 10)) t.kind)
  | .error m => .error m

/-- The decoder on bytes: total, a length other than 16 is rejected by name. -/
def decodeTagBytes (bs : List Byte) (dir : Direction) (tte : Bool) : Except DecodeError Instr :=
  if bs.length = 16 then
    match decodeRaw (rawOfBytes bs) dir tte with
    | .ok i => .ok i
    | .error m => .error (.malformed m)
  else .error .notSixteenBytes

/-! ## The default parameters (R8), here where they can be mended -/

/-- The register addresses of R15. -/
def RegBase.ps2 : RegBase where
  chan := #v[0x10008000#32, 0x10009000#32, 0x1000A000#32, 0x1000B000#32, 0x1000B400#32,
    0x1000C000#32, 0x1000C400#32, 0x1000C800#32, 0x1000D000#32, 0x1000D400#32]
  offsets := ⟨0x00#32, 0x10#32, 0x20#32, 0x30#32, 0x40#32, 0x50#32, 0x80#32⟩
  dCtrl := 0x1000E000#32
  dStat := 0x1000E010#32
  dPcr := 0x1000E020#32
  dStadr := 0x1000E060#32
  dSqwc := 0x1000E030#32
  dRbsr := 0x1000E040#32
  dRbor := 0x1000E050#32
  dEnabler := 0x1000F520#32
  dEnablew := 0x1000F590#32

/-- The defaults of R8 and R17. -/
def Config.ps2 : Config where
  nch := 10
  chName := #v["VIF0", "VIF1", "GIF", "fromIPU", "toIPU", "SIF0", "SIF1", "SIF2", "fromSPR", "toSPR"]
  memSize := 0x2000000
  sprSize := 0x4000
  cisOnCompletion := true
  irqEndsChain := true
  fixedDir := #v[some .fromMemory, none, some .fromMemory, some .toMemory, some .fromMemory,
    some .toMemory, some .fromMemory, none, some .toMemory, some .fromMemory]
  regs := RegBase.ps2

/-! ## Register addresses -/

/-- Offset of a register in its channel's block (R15). -/
def ChanOffsets.of (o : ChanOffsets) : ChanReg → Word
  | .chcr => o.chcr
  | .madr => o.madr
  | .qwc => o.qwc
  | .tadr => o.tadr
  | .asr0 => o.asr0
  | .asr1 => o.asr1

/-- Base of a channel's block (R15). -/
def RegBase.base (m : RegBase) (c : Chan) : Word := m.chan[c.num]'c.num_lt

/-- The address of a register (R15). -/
def RegBase.addr (m : RegBase) : RegName → Word
  | .chan c r => m.base c + m.offsets.of r
  | .sadr8 => m.base .fromSpr + m.offsets.sadr
  | .sadr9 => m.base .toSpr + m.offsets.sadr
  | .dCtrl => m.dCtrl
  | .dStat => m.dStat
  | .dPcr => m.dPcr
  | .dStadr => m.dStadr
  | .dSqwc => m.dSqwc
  | .dRbsr => m.dRbsr
  | .dRbor => m.dRbor
  | .dEnabler => m.dEnabler
  | .dEnablew => m.dEnablew

/-- The registers every channel has. -/
def ChanReg.all : List ChanReg := [.chcr, .madr, .qwc, .tadr, .asr0, .asr1]

/-- Every register name of R15. -/
def RegName.all : List RegName :=
  Chan.all.flatMap (fun c => ChanReg.all.map (RegName.chan c)) ++
    [.sadr8, .sadr9, .dCtrl, .dStat, .dPcr, .dStadr, .dSqwc, .dRbsr, .dRbor, .dEnabler, .dEnablew]

/-- Which registers stand at the host port: those of the channels numbered below `NCH` (R8), and the global ones
(DESIGN CHOICE, notes/assumptions/22.md; with NCH = 10 every register does). -/
def Config.hasReg (g : Config) : RegName → Bool
  | .chan c _ => decide (c.num < g.nch)
  | .sadr8 => decide (Chan.fromSpr.num < g.nch)
  | .sadr9 => decide (Chan.toSpr.num < g.nch)
  | .dCtrl | .dStat | .dPcr | .dStadr | .dSqwc | .dRbsr | .dRbor | .dEnabler | .dEnablew => true

/-- R118: the register an address is routed to. Where a map gives two registers one address the first of
`RegName.all` is taken (DESIGN CHOICE, notes/assumptions/20.md; the map of R15 gives none). -/
def Config.find (g : Config) (a : Word) : Option RegName :=
  RegName.all.find? (fun r => g.hasReg r && g.regs.addr r == a)

/-- R126, then R118 and R127: the access form is checked before the address is routed (DEDUCED,
notes/assumptions/14.md). -/
def decodeAccess (g : Config) (a : HostAccess) : Except AccessError Instr :=
  if a.width = .w32 ∧ a.addr.extractLsb' 0 2 = 0#2 then
    match g.find a.addr with
    | some r => .ok (Instr.ofAccess r a.kind)
    | none => .error .unmappedRegister
  else .error .accessForm

/-- An instruction as it reaches the block: 16 bytes at a tag address, or an access at the host port. -/
inductive Encoded where
  | tag (bytes : List Byte)
  | access (a : HostAccess)
deriving DecidableEq, Repr

/-- The decoder on either form. -/
def decode (g : Config) (dir : Direction) (tte : Bool) : Encoded → Except DecodeError Instr
  | .tag bs => decodeTagBytes bs dir tte
  | .access a =>
    match decodeAccess g a with
    | .ok i => .ok i
    | .error e => .error (.access e)

/-! ## The words of the opcode table -/

/-- The tag a channel with direction FromMemory and TTE = 0 reads from the low bits `w` of a tag (its other bits
zero). -/
def decodeTableTag (w : Nat) : Option Instr :=
  match decodeTagBytes (bytesOfNat 16 w) .fromMemory false with
  | .ok i => some i
  | .error _ => none

/-- The instruction the decoder reads from a word of the opcode table. The table gives tags and register accesses
32-bit words out of one number space: a word of at most 32 bits that is a register address of R15 is taken as a read
of that register, every other word as a tag (DESIGN CHOICE, notes/assumptions/11.md). -/
def decodeTableWord (nbits w : Nat) : Option Instr :=
  let v := w % 2 ^ nbits
  if nbits ≤ 32 then
    match decodeAccess Config.ps2 ⟨BitVec.ofNat 32 v, .w32, .read⟩ with
    | .ok i => some i
    | .error _ => decodeTableTag v
  else decodeTableTag v

/-! ## The encoder -/

/-- The code of a kind (R52); `code(ReferenceEnd) = code(ContinueStall) = 0` (R54). -/
def TagKind.code : TagKind → BitVec 3
  | .referenceEnd => 0#3
  | .continueStall => 0#3
  | .continue_ => 1#3
  | .next => 2#3
  | .reference => 3#3
  | .referenceStall => 4#3
  | .call => 5#3
  | .return_ => 6#3
  | .end_ => 7#3

/-- R54: the encoder, bits 25:16 and 127:64 zero. -/
def encodeTag (t : DmaTag) : BitVec 128 :=
  let lo64 : BitVec 64 :=
    t.qwc.setWidth 64
      ||| (t.pce.setWidth 64 <<< 26)
      ||| (t.kind.code.setWidth 64 <<< 28)
      ||| ((BitVec.ofBool t.irq).setWidth 64 <<< 31)
      ||| (t.addr.setWidth 64 <<< 32)
      ||| ((BitVec.ofBool t.spr).setWidth 64 <<< 63)
  lo64.setWidth 128

/-- The 128 bits of a tag instruction: R54 with raw[25:16] put back in its place. -/
def encodeFields (k : TagKind) (f : TagFields) : BitVec 128 :=
  encodeTag ⟨f.qwc, f.pce, k, f.irq, f.addr, f.spr⟩ ||| (f.rsv.setWidth 128 <<< 16)

/-- What an instruction is encoded as: a tag's 16 bytes, little-endian (R38), or a 32-bit access at its register's
address (R56). -/
def encode (m : RegBase) (i : Instr) : Encoded :=
  match i.operation with
  | .tag k f => .tag (bytesOfRaw (encodeFields k f))
  | .access r a => .access ⟨m.addr r, .w32, a⟩

/-! ## The assembler's syntax (R57) -/

/-- The mnemonic of a kind (R52, R57). -/
def TagKind.mnemonic : TagKind → String
  | .referenceEnd => "refe"
  | .continueStall => "cnts"
  | .continue_ => "cnt"
  | .next => "next"
  | .reference => "ref"
  | .referenceStall => "refs"
  | .call => "call"
  | .return_ => "ret"
  | .end_ => "end"

/-- A tag as R57 writes it: a field left out is 0. -/
structure AsmTag where
  kind : TagKind
  qwc : BitVec 16 := 0#16
  addr : BitVec 31 := 0#31
  spr : Bool := false
  irq : Bool := false
  pce : BitVec 2 := 0#2
deriving DecidableEq, Repr

/-- The 128 bits that the assembler writes for a tag (R57, R54). -/
def AsmTag.assemble (a : AsmTag) : BitVec 128 := encodeTag ⟨a.qwc, a.pce, a.kind, a.irq, a.addr, a.spr⟩

/-- A number in hexadecimal, as R57 writes addresses and values. -/
def hexText (n : Nat) : String := "0x" ++ String.ofList (Nat.toDigits 16 n)

/-- `0` or `1`. -/
def bitText (b : Bool) : String := if b then "1" else "0"

/-- A tag in the syntax of R57, every field written out. -/
def AsmTag.text (a : AsmTag) : String :=
  a.kind.mnemonic ++ " qwc=" ++ toString a.qwc.toNat ++ ", addr=" ++ hexText a.addr.toNat ++ ", spr=" ++ bitText a.spr
    ++ ", irq=" ++ bitText a.irq ++ ", pce=" ++ toString a.pce.toNat

/-- A channel register's name in 10_state.md. -/
def ChanReg.text : ChanReg → String
  | .chcr => "CHCR"
  | .madr => "MADR"
  | .qwc => "QWC"
  | .tadr => "TADR"
  | .asr0 => "ASR0"
  | .asr1 => "ASR1"

/-- A register's name, a channel register as `D<c>_<reg>` (R57). -/
def RegName.text : RegName → String
  | .chan c r => "D" ++ toString c.num ++ "_" ++ r.text
  | .sadr8 => "D8_SADR"
  | .sadr9 => "D9_SADR"
  | .dCtrl => "D_CTRL"
  | .dStat => "D_STAT"
  | .dPcr => "D_PCR"
  | .dStadr => "D_STADR"
  | .dSqwc => "D_SQWC"
  | .dRbsr => "D_RBSR"
  | .dRbor => "D_RBOR"
  | .dEnabler => "D_ENABLER"
  | .dEnablew => "D_ENABLEW"

/-- A host access in the syntax of R57: `R <reg>` or `W <reg>, <hex>`. -/
def accessText (r : RegName) : AccessKind → String
  | .read => "R " ++ r.text
  | .write v => "W " ++ r.text ++ ", " ++ hexText v.toNat

end Sys2Proof
end

