-- ==== Sys2Proof/Machine/State.lean ====
section
/-! DEFINITION. The state of the block as plain data (spec/10_state.md R13 to R33), the turns that agents take, the
reasons a step can stop, and the state after reset (spec/70_reset_and_hazards.md R151). -/

namespace Sys2Proof.Machine

/-- A register that is Undefined until the host or a channel step writes it (R33). `val` is what it holds;
`defined` is R33's mark. At reset it holds 0 and is marked Undefined (DESIGN CHOICE, notes/assumptions/1.md). -/
structure UReg (w : Nat) where
  val : BitVec w
  defined : Bool
deriving DecidableEq, Repr

/-- CHCR (R16). STR, bit 8, is computed from the phase (R128); bits 1 and 15:9 do not exist and read 0. -/
structure Chcr where
  /-- Bit 0: 1 is from memory (R17). -/
  dir : Bool
  /-- Bits 3:2: 0 Normal, 1 Chain, 2 Interleave, 3 reserved. -/
  mod : BitVec 2
  /-- Bits 5:4: the configured number of usable stack slots (R100). -/
  asp : BitVec 2
  /-- Bit 6 (R67). -/
  tte : Bool
  /-- Bit 7 (R73). -/
  tie : Bool
  /-- Bits 31:16: raw[31:16] of the last tag decoded. -/
  tag : BitVec 16
deriving DecidableEq, Repr

/-- The error reasons of R136; the cause of a MalformedTag is kept beside its code (R136 allows it,
notes/assumptions/16.md). -/
inductive ErrorReason where
  | malformedTag (m : MalformedTag)
  | stackOverflow
  | stackUnderflow
  | misalignedAddress
deriving DecidableEq, Repr

/-- R23. -/
inductive Phase where
  | stopped
  | running
  | suspended
  | errored (r : ErrorReason)
deriving DecidableEq, Repr

/-- R24: Interleave is never latched. -/
inductive Mode where
  | normal
  | chain
deriving DecidableEq, Repr

/-- R26, R120. -/
inductive StallRole where
  | none
  | publish
  | check
deriving DecidableEq, Repr

/-- One channel: its registers (R16 to R21) and its hidden state (R23 to R26). -/
structure ChannelState where
  chcr : Chcr
  madr : UReg 32
  /-- Bits 15:0 of QWC; bits 31:16 read 0 (R19). -/
  qwc : UReg 16
  tadr : UReg 32
  asr0 : UReg 32
  asr1 : UReg 32
  phase : Phase
  mode : Mode
  /-- How many stack slots are occupied (R25, R99). -/
  sp : Fin 3
  /-- How many stack slots the chain may use (R25, R100). -/
  cap : Fin 3
  descOpen : Bool
  endAfter : Bool
  irqArmed : Bool
  stallRole : StallRole
  stopReq : Bool
deriving DecidableEq, Repr

/-- An output event (R31). -/
inductive Event where
  /-- R123: the tag's PCE code to the bus arbiter. -/
  | priorityHint (c : Chan) (pce : BitVec 2)
  /-- R37: a tag read at the 31-bit address `a`. -/
  | tagRead (c : Chan) (r : Region) (a : BitVec 31)
deriving DecidableEq, Repr

/-- The steps of a channel (the table of R85); a slice says how many quadwords it moves (R88 `choose n`). -/
inductive ChanStep where
  | slice (n : Nat)
  | suspend
  | resume
  | descEnd
  | tagStep
  | stop
  | report
deriving DecidableEq, Repr

/-- A turn of one agent (R115, R117): a channel's step, a host access, an external input (R125), or another agent's
write of memory, of any number of bytes, as one indivisible step (R43, R46). -/
inductive Turn where
  | chan (c : Chan) (k : ChanStep)
  | host (a : HostAccess)
  | busErrorIn
  | mfifoEmptyIn
  | memWrite (r : Region) (a : BitVec 31) (bs : List Byte)
deriving DecidableEq, Repr

/-- A memory: its bytes by address, strictly rising, none equal to what an unlisted address reads as. -/
abbrev Memory := List Host.Cell

/-- The whole state (R13). The last five fields are the model's own. -/
structure State where
  /-- The ten channels by number (R7). -/
  chans : Vector ChannelState 10
  /-- SADR of channel 8 (R22), bits 13:0. -/
  sadr8 : UReg 14
  /-- SADR of channel 9 (R22), bits 13:0. -/
  sadr9 : UReg 14
  /-- D_CTRL bits 10:0 (R27); bits 31:11 read 0. -/
  dCtrl : BitVec 11
  /-- D_STAT (R28). -/
  dStat : Word
  /-- D_PCR (R29). -/
  dPcr : Word
  /-- D_STADR bits 30:0 (R30); bit 31 reads 0. -/
  dStadr : UReg 31
  /-- The event history, oldest first (R31). -/
  events : List Event
  /-- R32. -/
  refused : Bool
  /-- R32. -/
  faulted : Bool
  /-- Main memory (R35). -/
  mem : Memory
  /-- Scratch-pad RAM (R35). -/
  spr : Memory
  /-- The model's own: the parameters of R8; no step writes them (notes/assumptions/7.md). -/
  cfg : Config
  /-- The model's own: the host port's answer to the latest register read (R114 (1), notes/assumptions/9.md). -/
  hostData : Word
  /-- The model's own: the channel that the multiplexer serves (R117, notes/assumptions/8.md). -/
  mux : Chan
  /-- The model's own: which agent moves next, oldest first (R117, notes/assumptions/5.md). -/
  schedule : List Turn
  /-- The model's own: how many free values have been drawn (notes/assumptions/17.md). -/
  draws : Nat
deriving DecidableEq, Repr

/-- Why a step stops with a fault: the model faults of R141. -/
inductive Fault where
  /-- R33, R141: a start or a channel step uses a register that is Undefined. Raised by the start, the tag step, the
  slice, the stall check and the pop. Safe: the hardware's behaviour is not given by any source. -/
  | useOfUndefined
  /-- R36, R141: a tag read past MEM_SIZE or SPR_SIZE. Raised by the tag step. Safe: as above. -/
  | tagFetchOutOfRange
  /-- R32: the mark `faulted` is set, so the run has no further meaning. Raised by `step` alone. Safe. -/
  | alreadyFaulted
deriving DecidableEq, Repr

/-- Why a step is refused: the refusals of R142, and an instruction that has no meaning yet. -/
inductive Refusal where
  /-- An instruction without a meaning. Raised by an arm of `exec` alone. Safe. -/
  | notModelled (mnemonic : String)
  /-- R87: a start with CHCR.MOD = 2. Safe: no source gives interleave mode (D28). -/
  | interleaveMode
  /-- R87: a start with CHCR.MOD = 3. Safe (D28). -/
  | reservedMode
  /-- R87, R132: D_CTRL.MFD is not zero at a start, or is written so while a channel is active. Safe (D39). -/
  | mfifo
  /-- R127: an access to an address that is no register, or to a register that is out of scope. Safe (D49). -/
  | unmappedRegister
  /-- R126: an access that is not 32 bits at a multiple of 4. Safe (D47). -/
  | accessForm
  /-- R129, R131: a write of a channel register, other than a stop request, while the channel is active. Safe (D31). -/
  | writeWhileActive
  /-- R32: the mark `refused` is set, so the run has no further meaning. Raised by `step` alone. Safe. -/
  | alreadyRefused
deriving DecidableEq, Repr

/-- What a meaning answers. -/
abbrev Result := Host.Outcome State Fault Refusal

/-- A register of R33 right after reset: Undefined, holding the value that notes/assumptions/1.md names. -/
def UReg.undefined (w : Nat) : UReg w := ⟨0#w, false⟩

/-- A channel right after reset (R151). -/
def ChannelState.reset : ChannelState where
  chcr := ⟨false, 0#2, 0#2, false, false, 0#16⟩
  madr := UReg.undefined 32
  qwc := UReg.undefined 16
  tadr := UReg.undefined 32
  asr0 := UReg.undefined 32
  asr1 := UReg.undefined 32
  phase := .stopped
  mode := .normal
  sp := 0
  cap := 0
  descOpen := false
  endAfter := false
  irqArmed := false
  stallRole := .none
  stopReq := false

/-- The machine right after reset (R151). -/
def State.reset : State where
  chans := Vector.replicate 10 ChannelState.reset
  sadr8 := UReg.undefined 14
  sadr9 := UReg.undefined 14
  dCtrl := 0#11
  dStat := 0#32
  dPcr := 0#32
  dStadr := UReg.undefined 31
  events := []
  refused := false
  faulted := false
  mem := []
  spr := []
  cfg := Config.ps2
  hostData := 0#32
  mux := .vif0
  schedule := []
  draws := 0

end Sys2Proof.Machine
end

