-- ==== Sys2Proof/Machine/Flags.lean ====
section
/-! DEFINITION. The status/mask register D_STAT: its bits, the raise, the host's write and read, the pending bits and
the interrupt output (spec/44_status_mask.md R107 to R112, spec/45_controller.md R124). The block has no other flags
(R34). -/

namespace Sys2Proof.Machine

/-- The implemented status bits, `SBITS` of R107. -/
inductive StatusBit where
  | cis (c : Chan)
  | sis
  | meis
  | beis
deriving DecidableEq, Repr

/-- A status bit's position in D_STAT (R28, R107); its mask stands 16 bits higher. -/
def StatusBit.pos : StatusBit → Nat
  | .cis c => c.num
  | .sis => 13
  | .meis => 14
  | .beis => 15

/-- `SBITS` of R107, in order. -/
def StatusBit.all : List StatusBit := Chan.all.map .cis ++ [.sis, .meis, .beis]

/-- The implemented status bits as a mask (R107). -/
def statusBits : Word := 0x0000E3FF#32

/-- The implemented mask bits as a mask, `MBITS` of R107. -/
def maskBits : Word := 0xE3FF0000#32

/-- R108: a raise sets one status bit, whatever its mask. -/
def statRaise (d : Word) (b : StatusBit) : Word := d ||| (1#32 <<< b.pos)

/-- R109: a host write of `v`: a 1 clears an implemented status bit and toggles an implemented mask bit. -/
def statWrite (d v : Word) : Word := (d &&& ~~~(v &&& statusBits)) ^^^ (v &&& maskBits)

/-- R110: what a host read returns. -/
def statRead (d : Word) : Word := d &&& (statusBits ||| maskBits)

/-- R111: status AND mask. -/
def isPending (d : Word) (b : StatusBit) : Bool := d.getLsbD b.pos && d.getLsbD (b.pos + 16)

/-- `DMAC_IRQ` of R124. -/
def irqLevel (d : Word) : Bool := StatusBit.all.any (isPending d)

/-- The interrupt output (R124). -/
def State.dmacIrq (s : State) : Bool := irqLevel s.dStat

/-- R108 on the state. -/
def State.raise (s : State) (b : StatusBit) : State := { s with dStat := statRaise s.dStat b }

end Sys2Proof.Machine
end

