-- ==== Sys2Proof/Machine/Operands.lean ====
section
/-! DEFINITION. How registers and addresses are read as operands: the address helpers (spec/41_tag_kinds.md R70, R71),
the fields of the control registers (spec/10_state.md R16, R17, R27, R29), the stall pairing (spec/45_controller.md
R120, R122) and what a host read of each register returns (spec/46_register_interface.md R128 to R135). -/

namespace Sys2Proof.Machine

/-! ## Addresses -/

/-- Bits 30:0 of an address register (R18, R20). -/
def addrBits (w : Word) : BitVec 31 := w.extractLsb' 0 31

/-- Bit 31 of an address register (R18, R20). -/
def regionBit (w : Word) : Bool := w.getLsbD 31

/-- The region that a region bit selects (R35). -/
def regionOf (w : Word) : Region := if regionBit w then .scratchPad else .memory

/-- An address register from its region bit and its address. -/
def regionAddr (b : Bool) (a : BitVec 31) : Word := (BitVec.ofBool b ++ a : BitVec (1 + 31))

/-- `add31` of R70: addresses wrap within 31 bits (D16). -/
def add31 (a : BitVec 31) (n : Nat) : BitVec 31 := a + BitVec.ofNat 31 n

/-- `AFTER_TAG` of R70. -/
def afterTag (t : Word) : BitVec 31 := add31 (addrBits t) 16

/-- `AFTER_DATA` of R70. -/
def afterData (t : Word) (qwc : BitVec 16) : BitVec 31 := add31 (addrBits t) (16 + 16 * qwc.toNat)

/-- `SAME_REGION` of R70: a tag address in the channel's tag-fetch region. -/
def sameRegion (t : Word) (a : BitVec 31) : Word := regionAddr (regionBit t) a

/-- `DATA` of R70, R71: a transfer address in the tag's own region. -/
def dataAddr (f : TagFields) (a : BitVec 31) : Word := regionAddr f.spr a

/-- An address register moved on by `n` quadwords in bits 30:0, bit 31 unchanged (R88). -/
def advance (w : Word) (n : Nat) : Word := regionAddr (regionBit w) (add31 (addrBits w) (16 * n))

/-- R39: bits 3:0 of a tag address are zero. -/
def tagAligned (t : Word) : Bool := t.extractLsb' 0 4 == 0#4

/-- raw[31:16] of a tag: what R72 copies to CHCR.TAG. -/
def tagHi16 (f : TagFields) (k : TagKind) : BitVec 16 :=
  (BitVec.ofBool f.irq ++ (k.code ++ (f.pce ++ f.rsv : BitVec (2 + 10)) : BitVec (3 + 12)) : BitVec (1 + 15))

/-! ## Registers that may be Undefined -/

/-- A register after a write: it holds the value and is no longer Undefined (R33, R131). -/
def UReg.written {w : Nat} (v : BitVec w) : UReg w := ⟨v, true⟩

/-- R130: a read returns the register's value, or a draw if it is Undefined; the register's reserved high bits are 0
either way. -/
def UReg.read32 {w : Nat} (r : UReg w) (draw : Word) : Word :=
  if r.defined then r.val.setWidth 32 else (draw.setWidth w).setWidth 32

/-! ## Control registers -/

/-- `active(c)` of 46_register_interface.md: the phase is not Stopped. -/
def ChannelState.active (ch : ChannelState) : Bool := ch.phase != .stopped

/-- R128: what a read of CHCR returns. -/
def ChannelState.chcrRead (ch : ChannelState) : Word :=
  (BitVec.ofBool ch.chcr.dir).setWidth 32
    ||| (ch.chcr.mod.setWidth 32 <<< 2)
    ||| (ch.chcr.asp.setWidth 32 <<< 4)
    ||| ((BitVec.ofBool ch.chcr.tte).setWidth 32 <<< 6)
    ||| ((BitVec.ofBool ch.chcr.tie).setWidth 32 <<< 7)
    ||| ((BitVec.ofBool ch.active).setWidth 32 <<< 8)
    ||| (ch.chcr.tag.setWidth 32 <<< 16)

/-- R129: the fields a write to CHCR stores; bits 1, 15:9 and 31:16 are ignored. -/
def Chcr.write (r : Chcr) (v : Word) : Chcr :=
  { r with dir := v.getLsbD 0, mod := v.extractLsb' 2 2, asp := v.extractLsb' 4 2, tte := v.getLsbD 6, tie := v.getLsbD 7 }

/-- R17: the channel's effective direction. -/
def effDir (g : Config) (c : Chan) (r : Chcr) : Direction :=
  match g.fixedDirOf c with
  | some d => d
  | none => if r.dir then .fromMemory else .toMemory

/-- R100: `cap` is min(ASP, 2). -/
def capOf (asp : BitVec 2) : Fin 3 :=
  match asp.toNat with
  | 0 => 0
  | 1 => 1
  | _ => 2

/-- D_CTRL.DMAE (R27). -/
def dmae (d : BitVec 11) : Bool := d.getLsbD 0

/-- D_CTRL.MFD (R27). -/
def mfd (d : BitVec 11) : BitVec 2 := d.extractLsb' 2 2

/-- D_CTRL.STS (R27). -/
def sts (d : BitVec 11) : BitVec 2 := d.extractLsb' 4 2

/-- D_CTRL.STD (R27). -/
def std (d : BitVec 11) : BitVec 2 := d.extractLsb' 6 2

/-- The bits of D_PCR that exist (R134). -/
def pcrBits : Word := 0x83FF03FF#32

/-- R116: `ChanEnabled(c)`. -/
def chanEnabled (dCtrl : BitVec 11) (dPcr : Word) (c : Chan) : Bool :=
  dmae dCtrl && (!dPcr.getLsbD 31 || dPcr.getLsbD (16 + c.num))

/-! ## Stall control -/

/-- `StallSource` of R120. -/
def stallSource (d : BitVec 11) : Option Chan :=
  match (sts d).toNat with
  | 1 => some .sif0
  | 2 => some .fromSpr
  | 3 => some .fromIpu
  | _ => none

/-- `StallDrain` of R120. -/
def stallDrain (d : BitVec 11) : Option Chan :=
  match (std d).toNat with
  | 1 => some .vif1
  | 2 => some .gif
  | 3 => some .sif1
  | _ => none

/-- `NormalRole` of R120. -/
def normalRole (d : BitVec 11) (c : Chan) : StallRole :=
  if stallSource d = some c then .publish
  else if stallDrain d = some c then .check
  else .none

/-- R122: `StallLimit`; `none` is the use of an Undefined register. -/
def stallLimit (ch : ChannelState) (dStadr : UReg 31) : Option Nat :=
  if ch.stallRole = .check then
    if dStadr.defined && ch.madr.defined then
      let m := (addrBits ch.madr.val).toNat
      let b := dStadr.val.toNat
      some (if b ≤ m then 0 else (b - m) / 16)
    else none
  else some 65535

end Sys2Proof.Machine
end

