-- ==== Sys2Proof/Machine/Ops.lean ====
section
/-! DEFINITION. The named operations that the meanings share: bytes of the two memories and the tag fetch, the
channels, the event history, the host port's answers, the address stack (spec/43_address_stack.md), the writes common
to every tag kind (R72), and a channel error with its recovery (spec/60_exceptions.md R137, R139). -/

namespace Sys2Proof.Machine

/-! ## Memory -/

/-- What a byte reads as that nothing has written (DESIGN CHOICE, notes/assumptions/4.md). -/
def unwrittenByte : Byte := 0#8

/-- One byte of a memory. -/
def Memory.read : Memory → Nat → Byte
  | [], _ => unwrittenByte
  | (k, b) :: m, a => if k = a then b else Memory.read m a

/-- A byte written, in the canonical form: an unlisted address reads as `unwrittenByte`, so writing that value
leaves or makes the address unlisted. -/
def Memory.write : Memory → Nat → Byte → Memory
  | [], a, b => if b = unwrittenByte then [] else [(a, b)]
  | (k, v) :: m, a, b =>
    if a < k then
      if b = unwrittenByte then (k, v) :: m else (a, b) :: (k, v) :: m
    else if a = k then
      if b = unwrittenByte then m else (k, b) :: m
    else (k, v) :: Memory.write m a b

/-- Every listed address is above `lo`, below 2^31 (R35), in rising order, with a byte that is not
`unwrittenByte`. -/
def Memory.wfAbove : Option Nat → Memory → Bool
  | _, [] => true
  | lo, (k, b) :: m => lo.all (fun l => decide (l < k)) && decide (k < 2 ^ 31) && b != unwrittenByte && Memory.wfAbove (some k) m

/-- The canonical form of a memory. -/
def Memory.wf (m : Memory) : Bool := Memory.wfAbove none m

/-- The memory of a region. -/
def State.memory (s : State) : Region → Memory
  | .memory => s.mem
  | .scratchPad => s.spr

/-- One byte of a region. -/
def State.readByte (s : State) (r : Region) (a : Nat) : Byte := (s.memory r).read a

/-- One byte of a region written: by an agent outside the block (R43, R48). -/
def State.writeByte (s : State) (r : Region) (a : BitVec 31) (b : Byte) : State :=
  match r with
  | .memory => { s with mem := s.mem.write a.toNat b }
  | .scratchPad => { s with spr := s.spr.write a.toNat b }

/-- R43: one write of memory by another agent, its bytes from address `a` up, as one step; addresses wrap in 31 bits
(DESIGN CHOICE, notes/assumptions/15.md). -/
def State.writeBytes (s : State) (r : Region) : BitVec 31 → List Byte → State
  | _, [] => s
  | a, b :: bs => (s.writeByte r a b).writeBytes r (a + 1#31) bs

/-- `size(region)` of R36. -/
def regionSize (g : Config) : Region → Nat
  | .memory => g.memSize
  | .scratchPad => g.sprSize

/-- `n` bytes of a region from address `a` up. -/
def State.readBytes (s : State) (r : Region) : Nat → Nat → List Byte
  | _, 0 => []
  | a, n + 1 => s.readByte r a :: s.readBytes r (a + 1) n

/-- R36: the 16 bytes of a tag, or `none` past the region's size. -/
def State.memRead16 (s : State) (r : Region) (a : BitVec 31) : Option (List Byte) :=
  if a.toNat + 16 ≤ regionSize s.cfg r then some (s.readBytes r a.toNat 16) else none

/-! ## Channels, events, the host port -/

/-- `ch[c]` (R10). -/
def State.chan (s : State) (c : Chan) : ChannelState := s.chans[c.num]'c.num_lt

/-- `ch[c]` written. -/
def State.setChan (s : State) (c : Chan) (x : ChannelState) : State :=
  { s with chans := s.chans.set c.num x c.num_lt }

/-- R10: `emit`. -/
def State.emit (s : State) (e : Event) : State := { s with events := s.events ++ [e] }

/-- The host port answers a register read (R114). -/
def State.answer (s : State) (v : Word) : State := { s with hostData := v }

/-- R130: the answer to a read of a register that may be Undefined; an Undefined one draws a free value. -/
def State.answerReg {w : Nat} (s : State) (r : UReg w) : State :=
  { s with
    hostData := r.read32 (Config.undefinedRead s.draws)
    draws := if r.defined then s.draws else s.draws + 1 }

/-! ## The address stack -/

/-- R101: push; `none` is StackOverflow, with nothing written. -/
def ChannelState.push (ch : ChannelState) (a : Word) : Option ChannelState :=
  if ch.cap ≤ ch.sp then none
  else if ch.sp = 0 then some { ch with asr0 := UReg.written a, sp := ch.sp + 1 }
  else some { ch with asr1 := UReg.written a, sp := ch.sp + 1 }

/-- What a pop answers. -/
inductive PopResult where
  /-- R102: the stack is empty. -/
  | underflow
  /-- R33: the slot is Undefined; R102 says why no run reaches this. -/
  | undefinedSlot
  | popped (a : Word) (ch : ChannelState)
deriving DecidableEq, Repr

/-- The slot that a pop reads (R102). -/
def ChannelState.topSlot (ch : ChannelState) : UReg 32 := if ch.sp = 2 then ch.asr1 else ch.asr0

/-- R102: pop; the slot keeps its value. -/
def ChannelState.pop (ch : ChannelState) : PopResult :=
  if ch.sp = 0 then .underflow
  else if ch.topSlot.defined then .popped ch.topSlot.val { ch with sp := ch.sp - 1 }
  else .undefinedSlot

/-! ## The end of a tag's transition -/

/-- R72: the writes common to every kind, after the kind's own writes, which `ch` holds. -/
def State.finishTag (s : State) (c : Chan) (k : TagKind) (f : TagFields) (ch : ChannelState) : State :=
  (s.setChan c
    { ch with
      qwc := UReg.written f.qwc
      chcr := { ch.chcr with tag := tagHi16 f k }
      descOpen := true
      irqArmed := f.irq && ch.chcr.tie }).emit (.priorityHint c f.pce)

/-! ## Channel errors -/

/-- R137: `raise Fault(c, r)`, the entry of a channel error: the phase and BEIS, nothing else. -/
def State.channelError (s : State) (c : Chan) (r : ErrorReason) : State :=
  (s.setChan c { s.chan c with phase := .errored r }).raise .beis

/-- The error codes of R136. -/
def ErrorReason.code : ErrorReason → Nat
  | .malformedTag _ => 1
  | .stackOverflow => 2
  | .stackUnderflow => 3
  | .misalignedAddress => 4

/-- A channel goes to Stopped with nothing pending: the writes of R95 and of R96. -/
def ChannelState.halt (ch : ChannelState) : ChannelState :=
  { ch with phase := .stopped, stopReq := false, descOpen := false, irqArmed := false, stallRole := .none }

/-- R96, R139: the report step, the return from a channel error. -/
def State.report (s : State) (c : Chan) : State := s.setChan c (s.chan c).halt

end Sys2Proof.Machine
end

