-- ==== Sys2Proof/Machine/Channel.lean ====
section
/-! DEFINITION. The channel state machine without the tag step (spec/42_channel_fsm.md R85 to R90, R93 to R96): when
each step is enabled and what it writes, and the start that a host write of CHCR calls (R87). -/

namespace Sys2Proof.Machine

/-- R87: the start, called after the written fields of CHCR are stored. An Undefined QWC or MADR is the fault that R87's
own pseudocode raises (R141, test vector F4). -/
def State.startChannel (s : State) (c : Chan) : Result :=
  let ch := s.chan c
  if ch.chcr.mod = 2#2 then .refused .interleaveMode
  else if ch.chcr.mod = 3#2 then .refused .reservedMode
  else if mfd s.dCtrl ≠ 0#2 then .refused .mfifo
  else if !ch.qwc.defined then .fault .useOfUndefined
  else if (ch.chcr.mod = 0#2 ∨ ch.qwc.val ≠ 0#16) ∧ !ch.madr.defined then .fault .useOfUndefined
  else if ch.chcr.mod = 0#2 then
    .next (s.setChan c
      { ch with
        stopReq := false
        irqArmed := false
        mode := .normal
        descOpen := true
        endAfter := true
        stallRole := normalRole s.dCtrl c
        phase := .running })
  else
    .next (s.setChan c
      { ch with
        stopReq := false
        irqArmed := false
        mode := .chain
        sp := 0
        cap := capOf ch.chcr.asp
        descOpen := ch.qwc.val != 0#16
        endAfter := false
        stallRole := .none
        phase := .running })

/-- R22, R88: SADR of channels 8 and 9 moves on by `n` quadwords modulo 2^14; `none` is the use of an Undefined
SADR. The other channels have none. -/
def State.advanceSadr (s : State) (c : Chan) (n : Nat) : Option State :=
  match c with
  | .fromSpr =>
    if s.sadr8.defined then some { s with sadr8 := UReg.written (s.sadr8.val + BitVec.ofNat 14 (16 * n)) } else none
  | .toSpr =>
    if s.sadr9.defined then some { s with sadr9 := UReg.written (s.sadr9.val + BitVec.ofNat 14 (16 * n)) } else none
  | .vif0 | .vif1 | .gif | .fromIpu | .toIpu | .sif0 | .sif1 | .sif2 => some s

/-- R121: after a slice of a descriptor with role Publish, D_STADR is the address after the last quadword moved. -/
def State.publish (s : State) (role : StallRole) (madr : Word) : State :=
  match role with
  | .publish => { s with dStadr := UReg.written (addrBits madr) }
  | .none | .check => s

/-- R88: a transfer slice of `n` quadwords. An Undefined MADR is the fault of R33, an Undefined SADR that of R88's own
pseudocode (R141, test vector F17). -/
def State.slice (s : State) (c : Chan) (n : Nat) : Result :=
  let ch := s.chan c
  if !ch.madr.defined then .fault .useOfUndefined
  else
    match s.advanceSadr c n with
    | none => .fault .useOfUndefined
    | some s1 =>
      let madr := advance ch.madr.val n
      .next ((s1.setChan c
        { ch with madr := UReg.written madr, qwc := UReg.written (ch.qwc.val - BitVec.ofNat 16 n) }).publish
          ch.stallRole madr)

/-- R93: the stall suspension, which raises SIS (D37). -/
def State.suspendStep (s : State) (c : Chan) : State :=
  (s.setChan c { s.chan c with phase := .suspended }).raise .sis

/-- R94. -/
def State.resumeStep (s : State) (c : Chan) : State := s.setChan c { s.chan c with phase := .running }

/-- R89: whether the descriptor end completes the channel. -/
def ChannelState.isDone (ch : ChannelState) (g : Config) : Bool := ch.endAfter || (ch.irqArmed && g.irqEndsChain)

/-- R90: the completion. -/
def State.complete (s : State) (c : Chan) : State :=
  let s1 := s.setChan c { s.chan c with phase := .stopped, stallRole := .none, stopReq := false }
  if s.cfg.cisOnCompletion then s1.raise (.cis c) else s1

/-- R89: the descriptor end: an armed descriptor raises the channel's status bit here, never at decode (D26). -/
def State.descEnd (s : State) (c : Chan) : State :=
  let ch := s.chan c
  let s1 := s.setChan c { ch with descOpen := false, irqArmed := false }
  let s2 := if ch.irqArmed then s1.raise (.cis c) else s1
  if ch.isDone s.cfg then s2.complete c else s2

/-- R95: the stop step. -/
def State.stopStep (s : State) (c : Chan) : State := s.setChan c (s.chan c).halt

/-! ## When a step is enabled -/

/-- The table of R85: `some b` says whether the step of channel `c` is enabled, `none` that asking reads an Undefined
register (R33, R122). The enable of R116 is apart (`State.chanOn`). -/
def State.stepReady (s : State) (c : Chan) (k : ChanStep) : Option Bool :=
  let ch := s.chan c
  match k with
  | .slice n =>
    if ch.phase = .running then
      if ch.qwc.defined then
        if ch.qwc.val = 0#16 then some false
        else (stallLimit ch s.dStadr).map (fun l => decide (1 ≤ n ∧ n ≤ min ch.qwc.val.toNat l))
      else none
    else some false
  | .suspend =>
    if ch.phase = .running then
      if ch.qwc.defined then
        if ch.qwc.val = 0#16 then some false
        else (stallLimit ch s.dStadr).map (fun l => decide (l = 0))
      else none
    else some false
  | .resume =>
    if ch.phase = .suspended then (stallLimit ch s.dStadr).map (fun l => decide (1 ≤ l)) else some false
  | .descEnd =>
    if ch.phase = .running then
      if ch.qwc.defined then some (ch.qwc.val == 0#16 && ch.descOpen) else none
    else some false
  | .tagStep =>
    if ch.phase = .running ∧ ch.mode = .chain then
      if ch.qwc.defined then some (ch.qwc.val == 0#16 && !ch.descOpen && !ch.stopReq) else none
    else some false
  | .stop => some (ch.stopReq && (ch.phase == .running || ch.phase == .suspended))
  | .report =>
    match ch.phase with
    | .errored _ => some true
    | .stopped | .running | .suspended => some false

/-- R116 on the state. -/
def State.chanOn (s : State) (c : Chan) : Bool := chanEnabled s.dCtrl s.dPcr c

end Sys2Proof.Machine
end

