-- ==== Sys2Proof/Machine/HostPort.lean ====
section
/-! DEFINITION. The reads and writes of the registers that every channel has, once for all channels
(spec/46_register_interface.md R128 to R131). The meanings of the 124 channel-register instructions are one call each
of these. -/

namespace Sys2Proof.Machine

/-- R128: a read of CHCR. -/
def readChcr (c : Chan) (s : State) : Result := .next (s.answer (s.chan c).chcrRead)

/-- R130: a read of a register that may be Undefined, in every phase. -/
def readReg {w : Nat} (r : UReg w) (s : State) : Result := .next (s.answerReg r)

/-- R129: a write of CHCR. -/
def writeChcr (c : Chan) (v : Word) (s : State) : Result :=
  let ch := s.chan c
  match ch.phase with
  | .stopped =>
    let s1 := s.setChan c { ch with chcr := ch.chcr.write v }
    if v.getLsbD 8 then s1.startChannel c else .next s1
  | .errored _ => .next s
  | .running | .suspended =>
    if v.getLsbD 8 then .refused .writeWhileActive else .next (s.setChan c { ch with stopReq := true })

/-- R131: a write of another channel register: `upd` is what it stores in the Stopped channel. -/
def writeStopped (c : Chan) (upd : ChannelState → ChannelState) (s : State) : Result :=
  if (s.chan c).active then .refused .writeWhileActive else .next (s.setChan c (upd (s.chan c)))

/-- R131: MADR, all 32 bits. -/
def writeMadr (c : Chan) (v : Word) (s : State) : Result :=
  writeStopped c (fun ch => { ch with madr := UReg.written v }) s

/-- R131: QWC, bits 15:0 of the value (D56). -/
def writeQwc (c : Chan) (v : Word) (s : State) : Result :=
  writeStopped c (fun ch => { ch with qwc := UReg.written (v.setWidth 16) }) s

/-- R131: TADR, all 32 bits; its alignment is checked at the tag step. -/
def writeTadr (c : Chan) (v : Word) (s : State) : Result :=
  writeStopped c (fun ch => { ch with tadr := UReg.written v }) s

/-- R131, R105: ASR0, all 32 bits; the occupancy does not change. -/
def writeAsr0 (c : Chan) (v : Word) (s : State) : Result :=
  writeStopped c (fun ch => { ch with asr0 := UReg.written v }) s

/-- R131, R105: ASR1, all 32 bits; the occupancy does not change. -/
def writeAsr1 (c : Chan) (v : Word) (s : State) : Result :=
  writeStopped c (fun ch => { ch with asr1 := UReg.written v }) s

/-- R132, R142: whether any channel is active. -/
def State.anyActive (s : State) : Bool := Chan.all.any (fun c => (s.chan c).active)

end Sys2Proof.Machine
end

