-- ==== Sys2Proof/Machine/ChannelReads.lean ====
section
/-! DEFINITION. The reads of the channel registers (spec/46_register_interface.md R128, R130), one meaning for each
register of each channel. A read has no side effect on the block (R40): it answers at the host port. -/

namespace Sys2Proof.Machine

/-- R128: read D0_CHCR. -/
def execReadD0Chcr (s : State) : Result := readChcr .vif0 s

/-- R130: read D0_MADR. -/
def execReadD0Madr (s : State) : Result := readReg (s.chan .vif0).madr s

/-- R130: read D0_QWC. -/
def execReadD0Qwc (s : State) : Result := readReg (s.chan .vif0).qwc s

/-- R130: read D0_TADR. -/
def execReadD0Tadr (s : State) : Result := readReg (s.chan .vif0).tadr s

/-- R130: read D0_ASR0. -/
def execReadD0Asr0 (s : State) : Result := readReg (s.chan .vif0).asr0 s

/-- R130: read D0_ASR1. -/
def execReadD0Asr1 (s : State) : Result := readReg (s.chan .vif0).asr1 s

/-- R128: read D1_CHCR. -/
def execReadD1Chcr (s : State) : Result := readChcr .vif1 s

/-- R130: read D1_MADR. -/
def execReadD1Madr (s : State) : Result := readReg (s.chan .vif1).madr s

/-- R130: read D1_QWC. -/
def execReadD1Qwc (s : State) : Result := readReg (s.chan .vif1).qwc s

/-- R130: read D1_TADR. -/
def execReadD1Tadr (s : State) : Result := readReg (s.chan .vif1).tadr s

/-- R130: read D1_ASR0. -/
def execReadD1Asr0 (s : State) : Result := readReg (s.chan .vif1).asr0 s

/-- R130: read D1_ASR1. -/
def execReadD1Asr1 (s : State) : Result := readReg (s.chan .vif1).asr1 s

/-- R128: read D2_CHCR. -/
def execReadD2Chcr (s : State) : Result := readChcr .gif s

/-- R130: read D2_MADR. -/
def execReadD2Madr (s : State) : Result := readReg (s.chan .gif).madr s

/-- R130: read D2_QWC. -/
def execReadD2Qwc (s : State) : Result := readReg (s.chan .gif).qwc s

/-- R130: read D2_TADR. -/
def execReadD2Tadr (s : State) : Result := readReg (s.chan .gif).tadr s

/-- R130: read D2_ASR0. -/
def execReadD2Asr0 (s : State) : Result := readReg (s.chan .gif).asr0 s

/-- R130: read D2_ASR1. -/
def execReadD2Asr1 (s : State) : Result := readReg (s.chan .gif).asr1 s

/-- R128: read D3_CHCR. -/
def execReadD3Chcr (s : State) : Result := readChcr .fromIpu s

/-- R130: read D3_MADR. -/
def execReadD3Madr (s : State) : Result := readReg (s.chan .fromIpu).madr s

/-- R130: read D3_QWC. -/
def execReadD3Qwc (s : State) : Result := readReg (s.chan .fromIpu).qwc s

/-- R130: read D3_TADR. -/
def execReadD3Tadr (s : State) : Result := readReg (s.chan .fromIpu).tadr s

/-- R130: read D3_ASR0. -/
def execReadD3Asr0 (s : State) : Result := readReg (s.chan .fromIpu).asr0 s

/-- R130: read D3_ASR1. -/
def execReadD3Asr1 (s : State) : Result := readReg (s.chan .fromIpu).asr1 s

/-- R128: read D4_CHCR. -/
def execReadD4Chcr (s : State) : Result := readChcr .toIpu s

/-- R130: read D4_MADR. -/
def execReadD4Madr (s : State) : Result := readReg (s.chan .toIpu).madr s

/-- R130: read D4_QWC. -/
def execReadD4Qwc (s : State) : Result := readReg (s.chan .toIpu).qwc s

/-- R130: read D4_TADR. -/
def execReadD4Tadr (s : State) : Result := readReg (s.chan .toIpu).tadr s

/-- R130: read D4_ASR0. -/
def execReadD4Asr0 (s : State) : Result := readReg (s.chan .toIpu).asr0 s

/-- R130: read D4_ASR1. -/
def execReadD4Asr1 (s : State) : Result := readReg (s.chan .toIpu).asr1 s

/-- R128: read D5_CHCR. -/
def execReadD5Chcr (s : State) : Result := readChcr .sif0 s

/-- R130: read D5_MADR. -/
def execReadD5Madr (s : State) : Result := readReg (s.chan .sif0).madr s

/-- R130: read D5_QWC. -/
def execReadD5Qwc (s : State) : Result := readReg (s.chan .sif0).qwc s

/-- R130: read D5_TADR. -/
def execReadD5Tadr (s : State) : Result := readReg (s.chan .sif0).tadr s

/-- R130: read D5_ASR0. -/
def execReadD5Asr0 (s : State) : Result := readReg (s.chan .sif0).asr0 s

/-- R130: read D5_ASR1. -/
def execReadD5Asr1 (s : State) : Result := readReg (s.chan .sif0).asr1 s

/-- R128: read D6_CHCR. -/
def execReadD6Chcr (s : State) : Result := readChcr .sif1 s

/-- R130: read D6_MADR. -/
def execReadD6Madr (s : State) : Result := readReg (s.chan .sif1).madr s

/-- R130: read D6_QWC. -/
def execReadD6Qwc (s : State) : Result := readReg (s.chan .sif1).qwc s

/-- R130: read D6_TADR. -/
def execReadD6Tadr (s : State) : Result := readReg (s.chan .sif1).tadr s

/-- R130: read D6_ASR0. -/
def execReadD6Asr0 (s : State) : Result := readReg (s.chan .sif1).asr0 s

/-- R130: read D6_ASR1. -/
def execReadD6Asr1 (s : State) : Result := readReg (s.chan .sif1).asr1 s

/-- R128: read D7_CHCR. -/
def execReadD7Chcr (s : State) : Result := readChcr .sif2 s

/-- R130: read D7_MADR. -/
def execReadD7Madr (s : State) : Result := readReg (s.chan .sif2).madr s

/-- R130: read D7_QWC. -/
def execReadD7Qwc (s : State) : Result := readReg (s.chan .sif2).qwc s

/-- R130: read D7_TADR. -/
def execReadD7Tadr (s : State) : Result := readReg (s.chan .sif2).tadr s

/-- R130: read D7_ASR0. -/
def execReadD7Asr0 (s : State) : Result := readReg (s.chan .sif2).asr0 s

/-- R130: read D7_ASR1. -/
def execReadD7Asr1 (s : State) : Result := readReg (s.chan .sif2).asr1 s

/-- R128: read D8_CHCR. -/
def execReadD8Chcr (s : State) : Result := readChcr .fromSpr s

/-- R130: read D8_MADR. -/
def execReadD8Madr (s : State) : Result := readReg (s.chan .fromSpr).madr s

/-- R130: read D8_QWC. -/
def execReadD8Qwc (s : State) : Result := readReg (s.chan .fromSpr).qwc s

/-- R130: read D8_TADR. -/
def execReadD8Tadr (s : State) : Result := readReg (s.chan .fromSpr).tadr s

/-- R130: read D8_ASR0. -/
def execReadD8Asr0 (s : State) : Result := readReg (s.chan .fromSpr).asr0 s

/-- R130: read D8_ASR1. -/
def execReadD8Asr1 (s : State) : Result := readReg (s.chan .fromSpr).asr1 s

/-- R130: read D8_SADR. -/
def execReadD8Sadr (s : State) : Result := readReg s.sadr8 s

/-- R128: read D9_CHCR. -/
def execReadD9Chcr (s : State) : Result := readChcr .toSpr s

/-- R130: read D9_MADR. -/
def execReadD9Madr (s : State) : Result := readReg (s.chan .toSpr).madr s

/-- R130: read D9_QWC. -/
def execReadD9Qwc (s : State) : Result := readReg (s.chan .toSpr).qwc s

/-- R130: read D9_TADR. -/
def execReadD9Tadr (s : State) : Result := readReg (s.chan .toSpr).tadr s

/-- R130: read D9_ASR0. -/
def execReadD9Asr0 (s : State) : Result := readReg (s.chan .toSpr).asr0 s

/-- R130: read D9_ASR1. -/
def execReadD9Asr1 (s : State) : Result := readReg (s.chan .toSpr).asr1 s

/-- R130: read D9_SADR. -/
def execReadD9Sadr (s : State) : Result := readReg s.sadr9 s

end Sys2Proof.Machine
end

