-- ==== Sys2Proof/Machine/ChannelWrites.lean ====
section
/-! DEFINITION. The writes of the channel registers (spec/46_register_interface.md R129, R131), one meaning for each
register of each channel. -/

namespace Sys2Proof.Machine

/-- R129: write D0_CHCR. -/
def execWriteD0Chcr (v : Word) (s : State) : Result := writeChcr .vif0 v s

/-- R131: write D0_MADR. -/
def execWriteD0Madr (v : Word) (s : State) : Result := writeMadr .vif0 v s

/-- R131: write D0_QWC. -/
def execWriteD0Qwc (v : Word) (s : State) : Result := writeQwc .vif0 v s

/-- R131: write D0_TADR. -/
def execWriteD0Tadr (v : Word) (s : State) : Result := writeTadr .vif0 v s

/-- R131: write D0_ASR0. -/
def execWriteD0Asr0 (v : Word) (s : State) : Result := writeAsr0 .vif0 v s

/-- R131: write D0_ASR1. -/
def execWriteD0Asr1 (v : Word) (s : State) : Result := writeAsr1 .vif0 v s

/-- R129: write D1_CHCR. -/
def execWriteD1Chcr (v : Word) (s : State) : Result := writeChcr .vif1 v s

/-- R131: write D1_MADR. -/
def execWriteD1Madr (v : Word) (s : State) : Result := writeMadr .vif1 v s

/-- R131: write D1_QWC. -/
def execWriteD1Qwc (v : Word) (s : State) : Result := writeQwc .vif1 v s

/-- R131: write D1_TADR. -/
def execWriteD1Tadr (v : Word) (s : State) : Result := writeTadr .vif1 v s

/-- R131: write D1_ASR0. -/
def execWriteD1Asr0 (v : Word) (s : State) : Result := writeAsr0 .vif1 v s

/-- R131: write D1_ASR1. -/
def execWriteD1Asr1 (v : Word) (s : State) : Result := writeAsr1 .vif1 v s

/-- R129: write D2_CHCR. -/
def execWriteD2Chcr (v : Word) (s : State) : Result := writeChcr .gif v s

/-- R131: write D2_MADR. -/
def execWriteD2Madr (v : Word) (s : State) : Result := writeMadr .gif v s

/-- R131: write D2_QWC. -/
def execWriteD2Qwc (v : Word) (s : State) : Result := writeQwc .gif v s

/-- R131: write D2_TADR. -/
def execWriteD2Tadr (v : Word) (s : State) : Result := writeTadr .gif v s

/-- R131: write D2_ASR0. -/
def execWriteD2Asr0 (v : Word) (s : State) : Result := writeAsr0 .gif v s

/-- R131: write D2_ASR1. -/
def execWriteD2Asr1 (v : Word) (s : State) : Result := writeAsr1 .gif v s

/-- R129: write D3_CHCR. -/
def execWriteD3Chcr (v : Word) (s : State) : Result := writeChcr .fromIpu v s

/-- R131: write D3_MADR. -/
def execWriteD3Madr (v : Word) (s : State) : Result := writeMadr .fromIpu v s

/-- R131: write D3_QWC. -/
def execWriteD3Qwc (v : Word) (s : State) : Result := writeQwc .fromIpu v s

/-- R131: write D3_TADR. -/
def execWriteD3Tadr (v : Word) (s : State) : Result := writeTadr .fromIpu v s

/-- R131: write D3_ASR0. -/
def execWriteD3Asr0 (v : Word) (s : State) : Result := writeAsr0 .fromIpu v s

/-- R131: write D3_ASR1. -/
def execWriteD3Asr1 (v : Word) (s : State) : Result := writeAsr1 .fromIpu v s

/-- R129: write D4_CHCR. -/
def execWriteD4Chcr (v : Word) (s : State) : Result := writeChcr .toIpu v s

/-- R131: write D4_MADR. -/
def execWriteD4Madr (v : Word) (s : State) : Result := writeMadr .toIpu v s

/-- R131: write D4_QWC. -/
def execWriteD4Qwc (v : Word) (s : State) : Result := writeQwc .toIpu v s

/-- R131: write D4_TADR. -/
def execWriteD4Tadr (v : Word) (s : State) : Result := writeTadr .toIpu v s

/-- R131: write D4_ASR0. -/
def execWriteD4Asr0 (v : Word) (s : State) : Result := writeAsr0 .toIpu v s

/-- R131: write D4_ASR1. -/
def execWriteD4Asr1 (v : Word) (s : State) : Result := writeAsr1 .toIpu v s

/-- R129: write D5_CHCR. -/
def execWriteD5Chcr (v : Word) (s : State) : Result := writeChcr .sif0 v s

/-- R131: write D5_MADR. -/
def execWriteD5Madr (v : Word) (s : State) : Result := writeMadr .sif0 v s

/-- R131: write D5_QWC. -/
def execWriteD5Qwc (v : Word) (s : State) : Result := writeQwc .sif0 v s

/-- R131: write D5_TADR. -/
def execWriteD5Tadr (v : Word) (s : State) : Result := writeTadr .sif0 v s

/-- R131: write D5_ASR0. -/
def execWriteD5Asr0 (v : Word) (s : State) : Result := writeAsr0 .sif0 v s

/-- R131: write D5_ASR1. -/
def execWriteD5Asr1 (v : Word) (s : State) : Result := writeAsr1 .sif0 v s

/-- R129: write D6_CHCR. -/
def execWriteD6Chcr (v : Word) (s : State) : Result := writeChcr .sif1 v s

/-- R131: write D6_MADR. -/
def execWriteD6Madr (v : Word) (s : State) : Result := writeMadr .sif1 v s

/-- R131: write D6_QWC. -/
def execWriteD6Qwc (v : Word) (s : State) : Result := writeQwc .sif1 v s

/-- R131: write D6_TADR. -/
def execWriteD6Tadr (v : Word) (s : State) : Result := writeTadr .sif1 v s

/-- R131: write D6_ASR0. -/
def execWriteD6Asr0 (v : Word) (s : State) : Result := writeAsr0 .sif1 v s

/-- R131: write D6_ASR1. -/
def execWriteD6Asr1 (v : Word) (s : State) : Result := writeAsr1 .sif1 v s

/-- R129: write D7_CHCR. -/
def execWriteD7Chcr (v : Word) (s : State) : Result := writeChcr .sif2 v s

/-- R131: write D7_MADR. -/
def execWriteD7Madr (v : Word) (s : State) : Result := writeMadr .sif2 v s

/-- R131: write D7_QWC. -/
def execWriteD7Qwc (v : Word) (s : State) : Result := writeQwc .sif2 v s

/-- R131: write D7_TADR. -/
def execWriteD7Tadr (v : Word) (s : State) : Result := writeTadr .sif2 v s

/-- R131: write D7_ASR0. -/
def execWriteD7Asr0 (v : Word) (s : State) : Result := writeAsr0 .sif2 v s

/-- R131: write D7_ASR1. -/
def execWriteD7Asr1 (v : Word) (s : State) : Result := writeAsr1 .sif2 v s

/-- R129: write D8_CHCR. -/
def execWriteD8Chcr (v : Word) (s : State) : Result := writeChcr .fromSpr v s

/-- R131: write D8_MADR. -/
def execWriteD8Madr (v : Word) (s : State) : Result := writeMadr .fromSpr v s

/-- R131: write D8_QWC. -/
def execWriteD8Qwc (v : Word) (s : State) : Result := writeQwc .fromSpr v s

/-- R131: write D8_TADR. -/
def execWriteD8Tadr (v : Word) (s : State) : Result := writeTadr .fromSpr v s

/-- R131: write D8_ASR0. -/
def execWriteD8Asr0 (v : Word) (s : State) : Result := writeAsr0 .fromSpr v s

/-- R131: write D8_ASR1. -/
def execWriteD8Asr1 (v : Word) (s : State) : Result := writeAsr1 .fromSpr v s

/-- R131: write D8_SADR. -/
def execWriteD8Sadr (v : Word) (s : State) : Result :=
  if (s.chan .fromSpr).active then .refused .writeWhileActive
  else .next { s with sadr8 := UReg.written (v.setWidth 14) }

/-- R129: write D9_CHCR. -/
def execWriteD9Chcr (v : Word) (s : State) : Result := writeChcr .toSpr v s

/-- R131: write D9_MADR. -/
def execWriteD9Madr (v : Word) (s : State) : Result := writeMadr .toSpr v s

/-- R131: write D9_QWC. -/
def execWriteD9Qwc (v : Word) (s : State) : Result := writeQwc .toSpr v s

/-- R131: write D9_TADR. -/
def execWriteD9Tadr (v : Word) (s : State) : Result := writeTadr .toSpr v s

/-- R131: write D9_ASR0. -/
def execWriteD9Asr0 (v : Word) (s : State) : Result := writeAsr0 .toSpr v s

/-- R131: write D9_ASR1. -/
def execWriteD9Asr1 (v : Word) (s : State) : Result := writeAsr1 .toSpr v s

/-- R131: write D9_SADR. -/
def execWriteD9Sadr (v : Word) (s : State) : Result :=
  if (s.chan .toSpr).active then .refused .writeWhileActive
  else .next { s with sadr9 := UReg.written (v.setWidth 14) }

end Sys2Proof.Machine
end

