-- ==== Sys2Proof/Machine/Globals.lean ====
section
/-! DEFINITION. The reads and writes of the global registers (spec/46_register_interface.md R132 to R135), and the
accesses to the registers that are out of scope, which are refused (R127). -/

namespace Sys2Proof.Machine

/-- R132: read D_CTRL, bits 31:11 as 0. -/
def execReadDCtrl (s : State) : Result := .next (s.answer (s.dCtrl.setWidth 32))

/-- R132: write D_CTRL, in every phase; a write of MFD that is not zero while any channel is active is refused. -/
def execWriteDCtrl (v : Word) (s : State) : Result :=
  if v.extractLsb' 2 2 ≠ 0#2 ∧ s.anyActive then .refused .mfifo else .next { s with dCtrl := v.setWidth 11 }

/-- R133, R110: read D_STAT, the status bits whatever the masks. -/
def execReadDStat (s : State) : Result := .next (s.answer (statRead s.dStat))

/-- R133, R109: write D_STAT, in every phase. -/
def execWriteDStat (v : Word) (s : State) : Result := .next { s with dStat := statWrite s.dStat v }

/-- R134: read D_PCR, bits 15:10 and 30:26 as 0. -/
def execReadDPcr (s : State) : Result := .next (s.answer (s.dPcr &&& pcrBits))

/-- R134: write D_PCR, in every phase. -/
def execWriteDPcr (v : Word) (s : State) : Result := .next { s with dPcr := v &&& pcrBits }

/-- R135: read D_STADR, bit 31 as 0. -/
def execReadDStadr (s : State) : Result := readReg s.dStadr s

/-- R135: write D_STADR, in every phase. -/
def execWriteDStadr (v : Word) (s : State) : Result := .next { s with dStadr := UReg.written (v.setWidth 31) }

/-- R127: an access to D_SQWC, which no source describes, is refused. -/
def execAccessDSqwcRefused (_ : AccessKind) (_ : State) : Result := .refused .unmappedRegister

/-- R127: an access to D_RBSR, which no source describes, is refused. -/
def execAccessDRbsrRefused (_ : AccessKind) (_ : State) : Result := .refused .unmappedRegister

/-- R127: an access to D_RBOR, which no source describes, is refused. -/
def execAccessDRborRefused (_ : AccessKind) (_ : State) : Result := .refused .unmappedRegister

/-- R127: an access to D_ENABLER, which no source describes, is refused. -/
def execAccessDEnablerRefused (_ : AccessKind) (_ : State) : Result := .refused .unmappedRegister

/-- R127: an access to D_ENABLEW, which no source describes, is refused. -/
def execAccessDEnablewRefused (_ : AccessKind) (_ : State) : Result := .refused .unmappedRegister

end Sys2Proof.Machine
end

