-- ==== Sys2Proof/Machine/Tags.lean ====
section
/-! DEFINITION. The nine tag kinds (spec/41_tag_kinds.md R75 to R83): each meaning is the transition that a decoded tag
makes on the channel that the multiplexer serves (`mux`). Every kind writes `end_after` and `stall_role`, false and
None unless its rule says otherwise (R72). -/

namespace Sys2Proof.Machine

/-- R75: the data stands at the tag's address, the chain ends after it, the stack is emptied (R104), TADR keeps the
address of this tag (D22). -/
def execRefe (f : TagFields) (s : State) : Result :=
  let ch := s.chan s.mux
  .next (s.finishTag s.mux .referenceEnd f
    { ch with
      madr := UReg.written (dataAddr f f.addr)
      endAfter := true
      stallRole := .none
      sp := 0 })

/-- R76: as Continue; the slices publish D_STADR where the channel is the stall source (D61). -/
def execCnts (f : TagFields) (s : State) : Result :=
  let ch := s.chan s.mux
  .next (s.finishTag s.mux .continueStall f
    { ch with
      madr := UReg.written (dataAddr f (afterTag ch.tadr.val))
      tadr := UReg.written (sameRegion ch.tadr.val (afterData ch.tadr.val f.qwc))
      endAfter := false
      stallRole := if stallSource s.dCtrl = some s.mux then .publish else .none })

/-- R77: the data follows the tag, the next tag follows the data. -/
def execCnt (f : TagFields) (s : State) : Result :=
  let ch := s.chan s.mux
  .next (s.finishTag s.mux .continue_ f
    { ch with
      madr := UReg.written (dataAddr f (afterTag ch.tadr.val))
      tadr := UReg.written (sameRegion ch.tadr.val (afterData ch.tadr.val f.qwc))
      endAfter := false
      stallRole := .none })

/-- R78: the data follows the tag, the next tag stands at the tag's address in the channel's own region (D57). -/
def execNext (f : TagFields) (s : State) : Result :=
  let ch := s.chan s.mux
  .next (s.finishTag s.mux .next f
    { ch with
      madr := UReg.written (dataAddr f (afterTag ch.tadr.val))
      tadr := UReg.written (sameRegion ch.tadr.val f.addr)
      endAfter := false
      stallRole := .none })

/-- R79: the data stands at the tag's address, the next tag follows this one. -/
def execRef (f : TagFields) (s : State) : Result :=
  let ch := s.chan s.mux
  .next (s.finishTag s.mux .reference f
    { ch with
      madr := UReg.written (dataAddr f f.addr)
      tadr := UReg.written (sameRegion ch.tadr.val (afterTag ch.tadr.val))
      endAfter := false
      stallRole := .none })

/-- R80: as Reference; the slices are checked against D_STADR where the channel is the stall drain (D62). -/
def execRefs (f : TagFields) (s : State) : Result :=
  let ch := s.chan s.mux
  .next (s.finishTag s.mux .referenceStall f
    { ch with
      madr := UReg.written (dataAddr f f.addr)
      tadr := UReg.written (sameRegion ch.tadr.val (afterTag ch.tadr.val))
      endAfter := false
      stallRole := if stallDrain s.dCtrl = some s.mux then .check else .none })

/-- R81: pushes the address after this descriptor's data and goes on at the tag's address; a full stack is the
channel error StackOverflow, with nothing else written (R74). -/
def execCall (f : TagFields) (s : State) : Result :=
  let ch := s.chan s.mux
  match ch.push (sameRegion ch.tadr.val (afterData ch.tadr.val f.qwc)) with
  | none => .next (s.channelError s.mux .stackOverflow)
  | some ch' =>
    .next (s.finishTag s.mux .call f
      { ch' with
        madr := UReg.written (dataAddr f (afterTag ch.tadr.val))
        tadr := UReg.written (sameRegion ch.tadr.val f.addr)
        endAfter := false
        stallRole := .none })

/-- R82: goes on at the popped address, all 32 bits; an empty stack is the channel error StackUnderflow, with nothing
else written (R74); an Undefined slot is a model fault (R33). -/
def execRet (f : TagFields) (s : State) : Result :=
  let ch := s.chan s.mux
  match ch.pop with
  | .underflow => .next (s.channelError s.mux .stackUnderflow)
  | .undefinedSlot => .fault .useOfUndefined
  | .popped a ch' =>
    .next (s.finishTag s.mux .return_ f
      { ch' with
        madr := UReg.written (dataAddr f (afterTag ch.tadr.val))
        tadr := UReg.written a
        endAfter := false
        stallRole := .none })

/-- R83: the data follows the tag, the chain ends after it, the stack is emptied (R104), TADR keeps the address of
this tag (D22). -/
def execEndTag (f : TagFields) (s : State) : Result :=
  let ch := s.chan s.mux
  .next (s.finishTag s.mux .end_ f
    { ch with
      madr := UReg.written (dataAddr f (afterTag ch.tadr.val))
      endAfter := true
      stallRole := .none
      sp := 0 })

end Sys2Proof.Machine
end

