-- ==== Sys2Proof/Machine/Dispatch.lean ====
section
/-! DEFINITION. The meaning of every instruction: one arm for each constructor of `Instr`, one call for each arm. -/

namespace Sys2Proof.Machine

def exec (i : Instr) (s : State) : Host.Outcome State Fault Refusal :=
  match i with
  | .refe f => Sys2Proof.Machine.execRefe f s
  | .cnts f => Sys2Proof.Machine.execCnts f s
  | .cnt f => Sys2Proof.Machine.execCnt f s
  | .next f => Sys2Proof.Machine.execNext f s
  | .ref f => Sys2Proof.Machine.execRef f s
  | .refs f => Sys2Proof.Machine.execRefs f s
  | .call f => Sys2Proof.Machine.execCall f s
  | .ret f => Sys2Proof.Machine.execRet f s
  | .endTag f => Sys2Proof.Machine.execEndTag f s
  | .readD0Chcr => Sys2Proof.Machine.execReadD0Chcr s
  | .writeD0Chcr v => Sys2Proof.Machine.execWriteD0Chcr v s
  | .readD0Madr => Sys2Proof.Machine.execReadD0Madr s
  | .writeD0Madr v => Sys2Proof.Machine.execWriteD0Madr v s
  | .readD0Qwc => Sys2Proof.Machine.execReadD0Qwc s
  | .writeD0Qwc v => Sys2Proof.Machine.execWriteD0Qwc v s
  | .readD0Tadr => Sys2Proof.Machine.execReadD0Tadr s
  | .writeD0Tadr v => Sys2Proof.Machine.execWriteD0Tadr v s
  | .readD0Asr0 => Sys2Proof.Machine.execReadD0Asr0 s
  | .writeD0Asr0 v => Sys2Proof.Machine.execWriteD0Asr0 v s
  | .readD0Asr1 => Sys2Proof.Machine.execReadD0Asr1 s
  | .writeD0Asr1 v => Sys2Proof.Machine.execWriteD0Asr1 v s
  | .readD1Chcr => Sys2Proof.Machine.execReadD1Chcr s
  | .writeD1Chcr v => Sys2Proof.Machine.execWriteD1Chcr v s
  | .readD1Madr => Sys2Proof.Machine.execReadD1Madr s
  | .writeD1Madr v => Sys2Proof.Machine.execWriteD1Madr v s
  | .readD1Qwc => Sys2Proof.Machine.execReadD1Qwc s
  | .writeD1Qwc v => Sys2Proof.Machine.execWriteD1Qwc v s
  | .readD1Tadr => Sys2Proof.Machine.execReadD1Tadr s
  | .writeD1Tadr v => Sys2Proof.Machine.execWriteD1Tadr v s
  | .readD1Asr0 => Sys2Proof.Machine.execReadD1Asr0 s
  | .writeD1Asr0 v => Sys2Proof.Machine.execWriteD1Asr0 v s
  | .readD1Asr1 => Sys2Proof.Machine.execReadD1Asr1 s
  | .writeD1Asr1 v => Sys2Proof.Machine.execWriteD1Asr1 v s
  | .readD2Chcr => Sys2Proof.Machine.execReadD2Chcr s
  | .writeD2Chcr v => Sys2Proof.Machine.execWriteD2Chcr v s
  | .readD2Madr => Sys2Proof.Machine.execReadD2Madr s
  | .writeD2Madr v => Sys2Proof.Machine.execWriteD2Madr v s
  | .readD2Qwc => Sys2Proof.Machine.execReadD2Qwc s
  | .writeD2Qwc v => Sys2Proof.Machine.execWriteD2Qwc v s
  | .readD2Tadr => Sys2Proof.Machine.execReadD2Tadr s
  | .writeD2Tadr v => Sys2Proof.Machine.execWriteD2Tadr v s
  | .readD2Asr0 => Sys2Proof.Machine.execReadD2Asr0 s
  | .writeD2Asr0 v => Sys2Proof.Machine.execWriteD2Asr0 v s
  | .readD2Asr1 => Sys2Proof.Machine.execReadD2Asr1 s
  | .writeD2Asr1 v => Sys2Proof.Machine.execWriteD2Asr1 v s
  | .readD3Chcr => Sys2Proof.Machine.execReadD3Chcr s
  | .writeD3Chcr v => Sys2Proof.Machine.execWriteD3Chcr v s
  | .readD3Madr => Sys2Proof.Machine.execReadD3Madr s
  | .writeD3Madr v => Sys2Proof.Machine.execWriteD3Madr v s
  | .readD3Qwc => Sys2Proof.Machine.execReadD3Qwc s
  | .writeD3Qwc v => Sys2Proof.Machine.execWriteD3Qwc v s
  | .readD3Tadr => Sys2Proof.Machine.execReadD3Tadr s
  | .writeD3Tadr v => Sys2Proof.Machine.execWriteD3Tadr v s
  | .readD3Asr0 => Sys2Proof.Machine.execReadD3Asr0 s
  | .writeD3Asr0 v => Sys2Proof.Machine.execWriteD3Asr0 v s
  | .readD3Asr1 => Sys2Proof.Machine.execReadD3Asr1 s
  | .writeD3Asr1 v => Sys2Proof.Machine.execWriteD3Asr1 v s
  | .readD4Chcr => Sys2Proof.Machine.execReadD4Chcr s
  | .writeD4Chcr v => Sys2Proof.Machine.execWriteD4Chcr v s
  | .readD4Madr => Sys2Proof.Machine.execReadD4Madr s
  | .writeD4Madr v => Sys2Proof.Machine.execWriteD4Madr v s
  | .readD4Qwc => Sys2Proof.Machine.execReadD4Qwc s
  | .writeD4Qwc v => Sys2Proof.Machine.execWriteD4Qwc v s
  | .readD4Tadr => Sys2Proof.Machine.execReadD4Tadr s
  | .writeD4Tadr v => Sys2Proof.Machine.execWriteD4Tadr v s
  | .readD4Asr0 => Sys2Proof.Machine.execReadD4Asr0 s
  | .writeD4Asr0 v => Sys2Proof.Machine.execWriteD4Asr0 v s
  | .readD4Asr1 => Sys2Proof.Machine.execReadD4Asr1 s
  | .writeD4Asr1 v => Sys2Proof.Machine.execWriteD4Asr1 v s
  | .readD5Chcr => Sys2Proof.Machine.execReadD5Chcr s
  | .writeD5Chcr v => Sys2Proof.Machine.execWriteD5Chcr v s
  | .readD5Madr => Sys2Proof.Machine.execReadD5Madr s
  | .writeD5Madr v => Sys2Proof.Machine.execWriteD5Madr v s
  | .readD5Qwc => Sys2Proof.Machine.execReadD5Qwc s
  | .writeD5Qwc v => Sys2Proof.Machine.execWriteD5Qwc v s
  | .readD5Tadr => Sys2Proof.Machine.execReadD5Tadr s
  | .writeD5Tadr v => Sys2Proof.Machine.execWriteD5Tadr v s
  | .readD5Asr0 => Sys2Proof.Machine.execReadD5Asr0 s
  | .writeD5Asr0 v => Sys2Proof.Machine.execWriteD5Asr0 v s
  | .readD5Asr1 => Sys2Proof.Machine.execReadD5Asr1 s
  | .writeD5Asr1 v => Sys2Proof.Machine.execWriteD5Asr1 v s
  | .readD6Chcr => Sys2Proof.Machine.execReadD6Chcr s
  | .writeD6Chcr v => Sys2Proof.Machine.execWriteD6Chcr v s
  | .readD6Madr => Sys2Proof.Machine.execReadD6Madr s
  | .writeD6Madr v => Sys2Proof.Machine.execWriteD6Madr v s
  | .readD6Qwc => Sys2Proof.Machine.execReadD6Qwc s
  | .writeD6Qwc v => Sys2Proof.Machine.execWriteD6Qwc v s
  | .readD6Tadr => Sys2Proof.Machine.execReadD6Tadr s
  | .writeD6Tadr v => Sys2Proof.Machine.execWriteD6Tadr v s
  | .readD6Asr0 => Sys2Proof.Machine.execReadD6Asr0 s
  | .writeD6Asr0 v => Sys2Proof.Machine.execWriteD6Asr0 v s
  | .readD6Asr1 => Sys2Proof.Machine.execReadD6Asr1 s
  | .writeD6Asr1 v => Sys2Proof.Machine.execWriteD6Asr1 v s
  | .readD7Chcr => Sys2Proof.Machine.execReadD7Chcr s
  | .writeD7Chcr v => Sys2Proof.Machine.execWriteD7Chcr v s
  | .readD7Madr => Sys2Proof.Machine.execReadD7Madr s
  | .writeD7Madr v => Sys2Proof.Machine.execWriteD7Madr v s
  | .readD7Qwc => Sys2Proof.Machine.execReadD7Qwc s
  | .writeD7Qwc v => Sys2Proof.Machine.execWriteD7Qwc v s
  | .readD7Tadr => Sys2Proof.Machine.execReadD7Tadr s
  | .writeD7Tadr v => Sys2Proof.Machine.execWriteD7Tadr v s
  | .readD7Asr0 => Sys2Proof.Machine.execReadD7Asr0 s
  | .writeD7Asr0 v => Sys2Proof.Machine.execWriteD7Asr0 v s
  | .readD7Asr1 => Sys2Proof.Machine.execReadD7Asr1 s
  | .writeD7Asr1 v => Sys2Proof.Machine.execWriteD7Asr1 v s
  | .readD8Chcr => Sys2Proof.Machine.execReadD8Chcr s
  | .writeD8Chcr v => Sys2Proof.Machine.execWriteD8Chcr v s
  | .readD8Madr => Sys2Proof.Machine.execReadD8Madr s
  | .writeD8Madr v => Sys2Proof.Machine.execWriteD8Madr v s
  | .readD8Qwc => Sys2Proof.Machine.execReadD8Qwc s
  | .writeD8Qwc v => Sys2Proof.Machine.execWriteD8Qwc v s
  | .readD8Tadr => Sys2Proof.Machine.execReadD8Tadr s
  | .writeD8Tadr v => Sys2Proof.Machine.execWriteD8Tadr v s
  | .readD8Asr0 => Sys2Proof.Machine.execReadD8Asr0 s
  | .writeD8Asr0 v => Sys2Proof.Machine.execWriteD8Asr0 v s
  | .readD8Asr1 => Sys2Proof.Machine.execReadD8Asr1 s
  | .writeD8Asr1 v => Sys2Proof.Machine.execWriteD8Asr1 v s
  | .readD8Sadr => Sys2Proof.Machine.execReadD8Sadr s
  | .writeD8Sadr v => Sys2Proof.Machine.execWriteD8Sadr v s
  | .readD9Chcr => Sys2Proof.Machine.execReadD9Chcr s
  | .writeD9Chcr v => Sys2Proof.Machine.execWriteD9Chcr v s
  | .readD9Madr => Sys2Proof.Machine.execReadD9Madr s
  | .writeD9Madr v => Sys2Proof.Machine.execWriteD9Madr v s
  | .readD9Qwc => Sys2Proof.Machine.execReadD9Qwc s
  | .writeD9Qwc v => Sys2Proof.Machine.execWriteD9Qwc v s
  | .readD9Tadr => Sys2Proof.Machine.execReadD9Tadr s
  | .writeD9Tadr v => Sys2Proof.Machine.execWriteD9Tadr v s
  | .readD9Asr0 => Sys2Proof.Machine.execReadD9Asr0 s
  | .writeD9Asr0 v => Sys2Proof.Machine.execWriteD9Asr0 v s
  | .readD9Asr1 => Sys2Proof.Machine.execReadD9Asr1 s
  | .writeD9Asr1 v => Sys2Proof.Machine.execWriteD9Asr1 v s
  | .readD9Sadr => Sys2Proof.Machine.execReadD9Sadr s
  | .writeD9Sadr v => Sys2Proof.Machine.execWriteD9Sadr v s
  | .readDCtrl => Sys2Proof.Machine.execReadDCtrl s
  | .writeDCtrl v => Sys2Proof.Machine.execWriteDCtrl v s
  | .readDStat => Sys2Proof.Machine.execReadDStat s
  | .writeDStat v => Sys2Proof.Machine.execWriteDStat v s
  | .readDPcr => Sys2Proof.Machine.execReadDPcr s
  | .writeDPcr v => Sys2Proof.Machine.execWriteDPcr v s
  | .readDStadr => Sys2Proof.Machine.execReadDStadr s
  | .writeDStadr v => Sys2Proof.Machine.execWriteDStadr v s
  | .accessDSqwcRefused a => Sys2Proof.Machine.execAccessDSqwcRefused a s
  | .accessDRbsrRefused a => Sys2Proof.Machine.execAccessDRbsrRefused a s
  | .accessDRborRefused a => Sys2Proof.Machine.execAccessDRborRefused a s
  | .accessDEnablerRefused a => Sys2Proof.Machine.execAccessDEnablerRefused a s
  | .accessDEnablewRefused a => Sys2Proof.Machine.execAccessDEnablewRefused a s

end Sys2Proof.Machine
end

