-- ==== Sys2Proof/Machine/Controller.lean ====
section
/-! DEFINITION. The tag step (spec/42_channel_fsm.md R91), and the Controller's multiplexer: one turn of one agent
(spec/45_controller.md R115 to R118, R125). -/

namespace Sys2Proof.Machine

/-- R91, R37, R117: the state in which a fetched tag's meaning runs: the read is in the event history and the
multiplexer serves the channel. -/
def State.fetched (s : State) (c : Chan) : State :=
  { s with
    mux := c
    events := s.events ++ [.tagRead c (regionOf (s.chan c).tadr.val) (addrBits (s.chan c).tadr.val)] }

/-- R91, R37: the tag step: fetch, decode, transition, interrupt arm, as one step; the order of its errors is R144's.
An error of the fetch's alignment comes before the read, so it appends no TagRead (R137). An Undefined TADR is the fault
of R91's first line, the first of R144 (a). -/
def State.tagStep (s : State) (c : Chan) : Result :=
  let ch := s.chan c
  if !ch.tadr.defined then .fault .useOfUndefined
  else if !tagAligned ch.tadr.val then .next (s.channelError c .misalignedAddress)
  else
    match s.memRead16 (regionOf ch.tadr.val) (addrBits ch.tadr.val) with
    | none => .fault .tagFetchOutOfRange
    | some bytes =>
      match decodeRaw (rawOfBytes bytes) (effDir s.cfg c ch.chcr) ch.chcr.tte with
      | .ok i => exec i (s.fetched c)
      | .error m => .next ((s.fetched c).channelError c (.malformedTag m))

/-- A step of channel `c` that is enabled, taken (R85). -/
def State.takeStep (s : State) (c : Chan) : ChanStep → Result
  | .slice n => s.slice c n
  | .suspend => .next (s.suspendStep c)
  | .resume => .next (s.resumeStep c)
  | .descEnd => .next (s.descEnd c)
  | .tagStep => s.tagStep c
  | .stop => .next (s.stopStep c)
  | .report => .next (s.report c)

/-- A turn of channel `c`: the step is taken where R116 and R85 enable it; where they do not there is no such step,
and the turn passes with nothing done (DESIGN CHOICE, notes/assumptions/5.md). A stall check against an Undefined D_STADR,
and a slice with an Undefined QWC, are the fault of R122 and R33 (R141, test vector T6); for the rest of what `none`
stands for see notes/assumptions/3.md. -/
def State.chanTurn (s : State) (c : Chan) (k : ChanStep) : Result :=
  if s.chanOn c then
    match s.stepReady c k with
    | none => .fault .useOfUndefined
    | some false => .next s
    | some true => s.takeStep c k
  else .next s

/-- R118, R126, R127: a host access is decoded to the register it is routed to and takes its meaning, or is refused. -/
def State.hostTurn (s : State) (a : HostAccess) : Result :=
  match decodeAccess s.cfg a with
  | .ok i => exec i s
  | .error .accessForm => .refused .accessForm
  | .error .unmappedRegister => .refused .unmappedRegister

/-- One turn of one agent (R115). -/
def State.turn (s : State) : Turn → Result
  | .chan c k => s.chanTurn c k
  | .host a => s.hostTurn a
  | .busErrorIn => .next (s.raise .beis)
  | .mfifoEmptyIn => .next (s.raise .meis)
  | .memWrite r a bs => .next (s.writeBytes r a bs)

/-! ## The multiplexer's own choice -/

/-- The slice a channel takes when no turn says its size: R88's `choose n`, from a free value. -/
def State.freeSlice (s : State) (c : Chan) : Nat :=
  let ch := s.chan c
  let most := min ch.qwc.val.toNat ((stallLimit ch s.dStadr).getD 65535)
  1 + Config.slicePick s.draws % max 1 most

/-- The steps of channel `c` that could be taken now (R85, R116). -/
def State.openSteps (s : State) (c : Chan) : List Turn :=
  if s.chanOn c then
    ([.slice (s.freeSlice c), .suspend, .resume, .descEnd, .tagStep, .stop, .report].filter
      (fun k => s.stepReady c k != some false)).map (Turn.chan c)
  else []

/-- R117: one of the enabled channel steps, which one being free; `none` where none is enabled. -/
def State.freeTurn (s : State) : Option Turn :=
  let open_ := Chan.all.flatMap s.openSteps
  if open_.isEmpty then none else open_[Config.muxPick s.draws % open_.length]?

end Sys2Proof.Machine
end

