-- ==== Sys2Proof/Machine/Step.lean ====
section
/-! DEFINITION. One step of the machine (spec/20_memory.md R43, spec/45_controller.md R117), and how an instruction
is placed where the next step runs it. -/

namespace Sys2Proof.Machine

/-- One step: the turn that the schedule says; where it says none, an enabled channel step that the multiplexer is
free to choose; where none is enabled the block waits for the host (R41), unchanged. A run whose mark `refused` or
`faulted` is set has no further step (R32, R85). notes/assumptions/5.md, 6.md, 10.md. -/
def step (s : State) : Host.Outcome State Fault Refusal :=
  if s.refused then .refused .alreadyRefused
  else if s.faulted then .fault .alreadyFaulted
  else
    match s.schedule with
    | t :: ts => State.turn { s with schedule := ts } t
    | [] =>
      match s.freeTurn with
      | some t => State.turn { s with draws := s.draws + 1 } t
      | none => .next s

/-- `s` with a tag whose bits are `w` at address 0 of Memory, and channel 2 (GIF, direction FromMemory) about to take
its tag step there: all that R91 and R116 ask for. -/
def State.withTag (s : State) (w : Nat) : State :=
  let ch := s.chan .gif
  let s1 := s.writeBytes .memory 0#31 (bytesOfNat 16 w)
  { s1.setChan .gif
      { ch with
        chcr := { ch.chcr with tte := false }
        tadr := UReg.written 0#32
        qwc := UReg.written 0#16
        phase := .running
        mode := .chain
        descOpen := false
        stopReq := false } with
    dCtrl := s.dCtrl ||| 1#11
    dPcr := s.dPcr &&& 0x7FFFFFFF#32
    refused := false
    faulted := false
    schedule := .chan .gif .tagStep :: s.schedule }

/-- `s` with the next turn given to the host, which reads the register at address `a`. -/
def State.withAccess (s : State) (a : Word) : State :=
  { s with refused := false, faulted := false, schedule := .host ⟨a, .w32, .read⟩ :: s.schedule }

/-- `s` with the instruction of `decodeTableWord nbits w` placed where the next step runs it: a tag in memory with its
channel at it, a register access at the host port. notes/assumptions/11.md and 12.md. -/
def State.withFetchWord (s : State) (nbits w : Nat) : State :=
  let v := w % 2 ^ nbits
  if nbits ≤ 32 then
    match decodeAccess Config.ps2 ⟨BitVec.ofNat 32 v, .w32, .read⟩ with
    | .ok _ => s.withAccess (BitVec.ofNat 32 v)
    | .error _ => s.withTag v
  else s.withTag v

end Sys2Proof.Machine
end

