-- ==== Sys2Proof/Safety.lean ====
section
/-! DEFINITION. What claims speak of: the end of a run and the marks (spec/45_controller.md R119, spec/10_state.md
R32), and the invariant of the states a run reaches. -/

namespace Sys2Proof.Machine

/-- R119: a run is over when every channel is Stopped (no step of a Stopped channel is enabled, R85) and neither mark
is set. -/
def State.final (s : State) : Bool :=
  Chan.all.all (fun c => (s.chan c).phase == .stopped) && !s.refused && !s.faulted

/-- R32: the state after a step, with the mark that the step's outcome stands for. -/
def State.after (s : State) : State :=
  match step s with
  | .next t => t
  | .fault _ => { s with faulted := true }
  | .refused _ => { s with refused := true }

/-- What holds of every channel of a state that a run reaches.
`slots`: the occupied stack slots are written (R102); `within`: the occupancy is within the capacity (R100, R101);
`idle`: a Stopped channel has no descriptor, arm, role or stop request pending (R90, R95, R96);
`ready`: an active channel has the registers its start asked for (R87), and a QWC above 0 belongs to a descriptor that
is still open (R26); `held`: a Suspended channel is a checked drain with quadwords left (R93);
`failed`: an Errored channel stands between two descriptors of a chain (R138);
`plain`: an active Normal-mode channel ends with its descriptor (R92). -/
structure ChannelState.Inv (ch : ChannelState) : Prop where
  slots : (ch.sp ≠ 0 → ch.asr0.defined = true) ∧ (ch.sp = 2 → ch.asr1.defined = true)
  within : ch.sp ≤ ch.cap
  idle : ch.phase = .stopped →
    ch.descOpen = false ∧ ch.irqArmed = false ∧ ch.stallRole = .none ∧ ch.stopReq = false
  ready : ch.phase ≠ .stopped →
    ch.qwc.defined = true ∧ (ch.qwc.val ≠ 0#16 → ch.madr.defined = true ∧ ch.descOpen = true)
  held : ch.phase = .suspended → ch.stallRole = .check ∧ ch.qwc.val ≠ 0#16
  failed : ∀ r, ch.phase = .errored r →
    ch.mode = .chain ∧ ch.qwc.val = 0#16 ∧ ch.descOpen = false ∧ ch.stopReq = false
  plain : ch.phase ≠ .stopped → ch.mode = .normal → ch.descOpen = true ∧ ch.endAfter = true

/-- What holds of every state that a run reaches: both memories are in the canonical form, the bits of D_STAT and
D_PCR that do not exist are 0 (R107, R134), and every channel keeps its own. -/
structure State.Inv (s : State) : Prop where
  mem : s.mem.wf = true
  spr : s.spr.wf = true
  stat : s.dStat &&& (statusBits ||| maskBits) = s.dStat
  pcr : s.dPcr &&& pcrBits = s.dPcr
  chan : ∀ c, (s.chan c).Inv

end Sys2Proof.Machine
end

