-- ==== Sys2Proof/Certificates/Slice0/Obligations.lean ====
section
/-! DEFINITION. The statements for the provers. The words they share come first: what stays as it was, and a run's next
turn. Every address and count is written with numbers, not with the model's own helpers, so that a wrong helper makes
a statement false. -/

open Sys2Proof Sys2Proof.Machine

namespace Sys2Proof.Claims

/-- Every byte of both regions reads as before. -/
def SameBytes (s t : State) : Prop := ∀ (r : Region) (a : Nat), t.readByte r a = s.readByte r a

/-- Every field outside the channels, SADR, D_STADR, D_STAT, the event history and the host's answer is as before, and
every byte of memory. -/
structure SameControl (s t : State) : Prop where
  dCtrl : t.dCtrl = s.dCtrl
  dPcr : t.dPcr = s.dPcr
  refused : t.refused = s.refused
  faulted : t.faulted = s.faulted
  bytes : SameBytes s t
  cfg : t.cfg = s.cfg
  schedule : t.schedule = s.schedule
  draws : t.draws = s.draws

/-- SADR of both channels and D_STADR are as before. -/
structure SameAddresses (s t : State) : Prop where
  sadr8 : t.sadr8 = s.sadr8
  sadr9 : t.sadr9 = s.sadr9
  dStadr : t.dStadr = s.dStadr

/-- Every channel but `c` is as before. -/
def OtherChannels (c : Chan) (s t : State) : Prop := ∀ d, d ≠ c → t.chan d = s.chan d

/-- Nothing but channel `c`, D_STAT and the event history is changed. -/
structure OnlyChannel (c : Chan) (s t : State) : Prop where
  others : OtherChannels c s t
  control : SameControl s t
  addresses : SameAddresses s t
  mux : t.mux = s.mux
  hostData : t.hostData = s.hostData

/-- Nothing but the host's answer and the count of draws is changed. -/
def OnlyAnswer (s t : State) : Prop := ∃ v n, t = { s with hostData := v, draws := n }

/-- D_STAT is as before but for bit `n`, which is 1. -/
def StatSet (n : Nat) (s t : State) : Prop :=
  ∀ i, i < 32 → t.dStat.getLsbD i = (decide (i = n) || s.dStat.getLsbD i)

/-- The number of an address register whose region bit is `b` and whose address is `n` modulo 2^31 (R70). -/
def atRegion (b : Bool) (n : Nat) : Word := BitVec.ofNat 32 ((if b then 2 ^ 31 else 0) + n % 2 ^ 31)

/-- The address of an address register, bits 30:0, as a number. -/
def addrOf (w : Word) : Nat := w.toNat % 2 ^ 31

/-- The region bit of an address register, bit 31. -/
def regOf (w : Word) : Bool := decide (2 ^ 31 ≤ w.toNat)

/-- The address right after the tag at `t` (R11, R70). -/
def nextTag (t : Word) : Nat := addrOf t + 16

/-- The address right after the data that follows the tag at `t` (R11, R70). -/
def nextData (t : Word) (q : BitVec 16) : Nat := addrOf t + 16 + 16 * q.toNat

/-- Whether channel `c` is the stall source that D_CTRL.STS, bits 5:4, names (R120: none, 5, 8, 3). -/
def isSource (dCtrl : BitVec 11) (c : Chan) : Bool :=
  decide ((dCtrl.toNat / 2 ^ 4 % 4, c.num) ∈ [(1, 5), (2, 8), (3, 3)])

/-- Whether channel `c` is the stall drain that D_CTRL.STD, bits 7:6, names (R120: none, 1, 2, 6). -/
def isDrain (dCtrl : BitVec 11) (c : Chan) : Bool :=
  decide ((dCtrl.toNat / 2 ^ 6 % 4, c.num) ∈ [(1, 1), (2, 2), (3, 6)])

/-- The direction that decides what tag kind code 0 is on channel `c`: FIXED_DIR where it is not none, else CHCR.DIR
(R17). -/
def directionOf (s : State) (c : Chan) : Direction :=
  match s.cfg.fixedDir[c.num]'c.num_lt with
  | some d => d
  | none => if (s.chan c).chcr.dir = true then .fromMemory else .toMemory

/-- Whether a checked descriptor may move `n` quadwords (R122): the boundary is not below the address after them. -/
def belowBoundary (s : State) (c : Chan) (n : Nat) : Prop :=
  s.dStadr.defined = true ∧ addrOf (s.chan c).madr.val + 16 * n ≤ s.dStadr.val.toNat

/-- The bases of the channels' register blocks, in the order of the channel numbers (R15). -/
def blockBases : List Nat :=
  [0x10008000, 0x10009000, 0x1000A000, 0x1000B000, 0x1000B400,
    0x1000C000, 0x1000C400, 0x1000C800, 0x1000D000, 0x1000D400]

/-- The default of every parameter, as the tables of R8, R15 and R17 give them. -/
structure DefaultParameters (g : Config) : Prop where
  nch : g.nch = 10
  chName : g.chName.toList =
    ["VIF0", "VIF1", "GIF", "fromIPU", "toIPU", "SIF0", "SIF1", "SIF2", "fromSPR", "toSPR"]
  fixedDir : g.fixedDir.toList =
    [some .fromMemory, none, some .fromMemory, some .toMemory, some .fromMemory,
      some .toMemory, some .fromMemory, none, some .toMemory, some .fromMemory]
  sizes : g.memSize = 0x2000000 ∧ g.sprSize = 0x4000
  completion : g.cisOnCompletion = true ∧ g.irqEndsChain = true
  block : ∀ (c : Chan) (r : ChanReg), (g.regs.addr (.chan c r)).toNat = blockBases.getD c.num 0 +
    match r with
    | .chcr => 0x00
    | .madr => 0x10
    | .qwc => 0x20
    | .tadr => 0x30
    | .asr0 => 0x40
    | .asr1 => 0x50
  sadr : g.regs.addr .sadr8 = 0x1000D080#32 ∧ g.regs.addr .sadr9 = 0x1000D480#32
  global : g.regs.addr .dCtrl = 0x1000E000#32 ∧ g.regs.addr .dStat = 0x1000E010#32 ∧
    g.regs.addr .dPcr = 0x1000E020#32 ∧ g.regs.addr .dStadr = 0x1000E060#32
  outOfScope : g.regs.addr .dSqwc = 0x1000E030#32 ∧ g.regs.addr .dRbsr = 0x1000E040#32 ∧
    g.regs.addr .dRbor = 0x1000E050#32 ∧ g.regs.addr .dEnabler = 0x1000F520#32 ∧
    g.regs.addr .dEnablew = 0x1000F590#32

/-- What every tag kind writes beside its own writes `ch`: QWC, CHCR.TAG, desc_open, irq_armed, the hint (R72, R73),
and nothing else. -/
structure TagDone (s t : State) (k : TagKind) (f : TagFields) (ch : ChannelState) : Prop where
  channel : t.chan s.mux =
    { ch with
      qwc := ⟨f.qwc, true⟩
      chcr := { ch.chcr with tag := (encodeFields k f).extractLsb' 16 16 }
      descOpen := true
      irqArmed := f.irq && ch.chcr.tie }
  hint : t.events = s.events ++ [.priorityHint s.mux f.pce]
  stat : t.dStat = s.dStat
  rest : OnlyChannel s.mux s t

/-- What a channel error of channel `c` does (R137): the phase and BEIS, nothing else. -/
structure ErrorDone (s t : State) (c : Chan) (r : ErrorReason) : Prop where
  channel : t.chan c = { s.chan c with phase := .errored r }
  events : t.events = s.events
  stat : StatSet 15 s t
  rest : OnlyChannel c s t

/-- Neither mark of R32 is set. -/
def Unmarked (s : State) : Prop := s.refused = false ∧ s.faulted = false

/-- `s` with the next turn given to an agent. That the order of the agents' turns stands in the state is the model's
choice (notes/assumptions/5.md). -/
def given (s : State) (t : Turn) : State := { s with schedule := t :: s.schedule }

end Sys2Proof.Claims

open Sys2Proof.Claims

/-! ## Decoding and encoding -/

/-- Every well-formed instruction, with every value of its operands, decodes from what it is encoded as, whatever the
parameters, where each register has an address of its own at a multiple of 4 and the ten channels exist (R69, R54, R60,
R118, R126). For a tag's operand `rsv`, raw[25:16], this is THE MODEL'S CHOICE (DEDUCED, notes/assumptions/13.md): the
model's encoder puts the ten bits back, where R54 writes them as zero and R69 drops them; with `rsv` zero the encoder
is R54's. What NCH does here is the model's choice too (notes/assumptions/22.md). -/
def Obligations.DecodeInvertsEncode : Prop :=
  ∀ (g : Config) (i : Instr) (dir : Direction) (tte : Bool), 10 ≤ g.nch →
    (∀ r q, g.regs.addr r = g.regs.addr q → r = q) → (∀ r, (g.regs.addr r).toNat % 4 = 0) →
    i.wellFormed dir tte = true → decode g dir tte (encode g.regs i) = .ok i

/-- R69, both halves, on the decoder and the encoder of R60 and R54. -/
def Obligations.TagRoundTrip : Prop :=
  (∀ (raw : BitVec 128) (dir : Direction) (tte : Bool) (t : DmaTag), decodeTag raw dir tte = .ok t →
    ∀ i, (encodeTag t).getLsbD i = (raw.getLsbD i && decide (i < 16 ∨ 26 ≤ i ∧ i < 64))) ∧
  (∀ (t : DmaTag) (dir : Direction) (tte : Bool), t.wellFormed dir tte = true →
    decodeTag (encodeTag t) dir tte = .ok t)

/-- R68: tags that agree outside bits 25:16 and 127:64 decode to the same. -/
def Obligations.DecoderIgnoresReservedBits : Prop :=
  ∀ (raw raw' : BitVec 128) (dir : Direction) (tte : Bool),
    (∀ i, i < 16 ∨ 26 ≤ i ∧ i < 64 → raw.getLsbD i = raw'.getLsbD i) →
    decodeTag raw dir tte = decodeTag raw' dir tte

/-- R67, R64: the decoder fails exactly on a misaligned address field with TTE = 1, for every kind. -/
def Obligations.DecoderFailsOnlyOnAlignment : Prop :=
  ∀ (raw : BitVec 128) (dir : Direction) (tte : Bool) (m : MalformedTag),
    decodeTag raw dir tte = .error m ↔ m = .misaligned ∧ tte = true ∧ raw.toNat / 2 ^ 32 % 16 ≠ 0

/-- Words written out from R50 and R15 decode to the instructions they stand for. That the reserved bits 25:16 of the
second word, 3, stand in the operand `rsv` is THE MODEL'S CHOICE (DEDUCED, notes/assumptions/13.md: they are kept for
CHCR.TAG); the tag itself decodes as if they were zero (R68). -/
def Obligations.WrittenWordsDecode : Prop :=
  decodeRaw 0x0000000000000000000020002000FFFF#128 .fromMemory true
      = .ok (.next ⟨0xFFFF#16, 0#10, 0#2, false, 0x2000#31, false⟩) ∧
    decodeRaw 0x0123456789ABCDEF8000001080030008#128 .toMemory false
      = .ok (.cnts ⟨8#16, 3#10, 0#2, true, 0x10#31, true⟩) ∧
    decodeRaw 0x000000000000000000003000540000AB#128 .toMemory false
      = .ok (.call ⟨0xAB#16, 0#10, 1#2, false, 0x3000#31, false⟩) ∧
    decodeAccess Config.ps2 ⟨0x1000D480#32, .w32, .write 5#32⟩ = .ok (.writeD9Sadr 5#32) ∧
    decodeAccess Config.ps2 ⟨0x1000C430#32, .w32, .read⟩ = .ok .readD6Tadr

/-! ## The nine tag kinds: each answers a next state, for every state and every operand -/

/-- R75 (refe). -/
def Obligations.ReferenceEndTransition : Prop :=
  ∀ (f : TagFields) (s : State), ∃ t, exec (.refe f) s = .next t ∧
    TagDone s t .referenceEnd f
      { s.chan s.mux with
        madr := ⟨atRegion f.spr f.addr.toNat, true⟩, endAfter := true, stallRole := .none, sp := 0 }

/-- R76 (cnts); the stall source by the table of R120. -/
def Obligations.ContinueStallTransition : Prop :=
  ∀ (f : TagFields) (s : State), ∃ t, exec (.cnts f) s = .next t ∧
    TagDone s t .continueStall f
      { s.chan s.mux with
        madr := ⟨atRegion f.spr (nextTag (s.chan s.mux).tadr.val), true⟩
        tadr := ⟨atRegion (regOf (s.chan s.mux).tadr.val) (nextData (s.chan s.mux).tadr.val f.qwc), true⟩
        endAfter := false
        stallRole := if isSource s.dCtrl s.mux then .publish else .none }

/-- R77 (cnt). -/
def Obligations.ContinueTransition : Prop :=
  ∀ (f : TagFields) (s : State), ∃ t, exec (.cnt f) s = .next t ∧
    TagDone s t .continue_ f
      { s.chan s.mux with
        madr := ⟨atRegion f.spr (nextTag (s.chan s.mux).tadr.val), true⟩
        tadr := ⟨atRegion (regOf (s.chan s.mux).tadr.val) (nextData (s.chan s.mux).tadr.val f.qwc), true⟩
        endAfter := false
        stallRole := .none }

/-- R78 (next). -/
def Obligations.NextTransition : Prop :=
  ∀ (f : TagFields) (s : State), ∃ t, exec (.next f) s = .next t ∧
    TagDone s t .next f
      { s.chan s.mux with
        madr := ⟨atRegion f.spr (nextTag (s.chan s.mux).tadr.val), true⟩
        tadr := ⟨atRegion (regOf (s.chan s.mux).tadr.val) f.addr.toNat, true⟩
        endAfter := false
        stallRole := .none }

/-- R79 (ref). -/
def Obligations.ReferenceTransition : Prop :=
  ∀ (f : TagFields) (s : State), ∃ t, exec (.ref f) s = .next t ∧
    TagDone s t .reference f
      { s.chan s.mux with
        madr := ⟨atRegion f.spr f.addr.toNat, true⟩
        tadr := ⟨atRegion (regOf (s.chan s.mux).tadr.val) (nextTag (s.chan s.mux).tadr.val), true⟩
        endAfter := false
        stallRole := .none }

/-- R80 (refs); the stall drain by the table of R120. -/
def Obligations.ReferenceStallTransition : Prop :=
  ∀ (f : TagFields) (s : State), ∃ t, exec (.refs f) s = .next t ∧
    TagDone s t .referenceStall f
      { s.chan s.mux with
        madr := ⟨atRegion f.spr f.addr.toNat, true⟩
        tadr := ⟨atRegion (regOf (s.chan s.mux).tadr.val) (nextTag (s.chan s.mux).tadr.val), true⟩
        endAfter := false
        stallRole := if isDrain s.dCtrl s.mux then .check else .none }

/-- R81, R101 (call): a push onto a stack that is not full. -/
def Obligations.CallTransition : Prop :=
  ∀ (f : TagFields) (s : State), (s.chan s.mux).sp < (s.chan s.mux).cap →
    ∃ t, exec (.call f) s = .next t ∧
      TagDone s t .call f
        { s.chan s.mux with
          madr := ⟨atRegion f.spr (nextTag (s.chan s.mux).tadr.val), true⟩
          tadr := ⟨atRegion (regOf (s.chan s.mux).tadr.val) f.addr.toNat, true⟩
          asr0 := if (s.chan s.mux).sp = 0
            then ⟨atRegion (regOf (s.chan s.mux).tadr.val) (nextData (s.chan s.mux).tadr.val f.qwc), true⟩
            else (s.chan s.mux).asr0
          asr1 := if (s.chan s.mux).sp = 0 then (s.chan s.mux).asr1
            else ⟨atRegion (regOf (s.chan s.mux).tadr.val) (nextData (s.chan s.mux).tadr.val f.qwc), true⟩
          sp := if (s.chan s.mux).sp = 0 then 1 else 2
          endAfter := false
          stallRole := .none }

/-- R74, R81, R101 (call): on a full stack the channel error StackOverflow, nothing else written. -/
def Obligations.CallOverflows : Prop :=
  ∀ (f : TagFields) (s : State), (s.chan s.mux).cap ≤ (s.chan s.mux).sp →
    ∃ t, exec (.call f) s = .next t ∧ ErrorDone s t s.mux .stackOverflow

/-- R82, R102 (ret): a pop from a stack that is not empty, its top slot written. -/
def Obligations.ReturnTransition : Prop :=
  ∀ (f : TagFields) (s : State), (s.chan s.mux).sp ≠ 0 →
    ((s.chan s.mux).sp = 2 → (s.chan s.mux).asr1.defined = true) →
    ((s.chan s.mux).sp = 1 → (s.chan s.mux).asr0.defined = true) →
    ∃ t, exec (.ret f) s = .next t ∧
      TagDone s t .return_ f
        { s.chan s.mux with
          madr := ⟨atRegion f.spr (nextTag (s.chan s.mux).tadr.val), true⟩
          tadr := if (s.chan s.mux).sp = 2 then (s.chan s.mux).asr1 else (s.chan s.mux).asr0
          sp := if (s.chan s.mux).sp = 2 then 1 else 0
          endAfter := false
          stallRole := .none }

/-- R74, R82, R102 (ret): on an empty stack the channel error StackUnderflow, nothing else written; R33: a pop of an
Undefined slot is a model fault. -/
def Obligations.ReturnUnderflows : Prop :=
  (∀ (f : TagFields) (s : State), (s.chan s.mux).sp = 0 →
    ∃ t, exec (.ret f) s = .next t ∧ ErrorDone s t s.mux .stackUnderflow) ∧
  (∀ (f : TagFields) (s : State),
    (s.chan s.mux).sp = 1 ∧ (s.chan s.mux).asr0.defined = false ∨
      (s.chan s.mux).sp = 2 ∧ (s.chan s.mux).asr1.defined = false →
    exec (.ret f) s = .fault .useOfUndefined)

/-- R83 (end). -/
def Obligations.EndTransition : Prop :=
  ∀ (f : TagFields) (s : State), ∃ t, exec (.endTag f) s = .next t ∧
    TagDone s t .end_ f
      { s.chan s.mux with
        madr := ⟨atRegion f.spr (nextTag (s.chan s.mux).tadr.val), true⟩
        endAfter := true
        stallRole := .none
        sp := 0 }

/-- R20: of the nine kinds only Return changes the tag region, bit 31 of TADR. -/
def Obligations.OnlyReturnMovesTagRegion : Prop :=
  ∀ (k : TagKind) (f : TagFields) (s t : State), k ≠ .return_ → exec (Instr.ofTag f k) s = .next t →
    (t.chan s.mux).tadr.val.getLsbD 31 = (s.chan s.mux).tadr.val.getLsbD 31

/-- R106 (a) and (b): with two free slots, two nested Calls and two Returns succeed and restore in turn the tag
addresses that a Continue in place of each Call would have set; a third Call before a Return overflows. Between the
tags the host and the slices leave TADR and the stack alone, so the tags are taken one after another here. -/
def Obligations.NestedCallsReturn : Prop :=
  ∀ (f g h k : TagFields) (s s1 s2 : State), (s.chan s.mux).sp = 0 → (s.chan s.mux).cap = 2 →
    exec (.call f) s = .next s1 → exec (.call g) s1 = .next s2 →
    (∃ t, exec (.call h) s2 = .next t ∧ ErrorDone s2 t s.mux .stackOverflow) ∧
    ∃ s3 s4 c1 c2, exec (.ret h) s2 = .next s3 ∧ exec (.ret k) s3 = .next s4 ∧
      exec (.cnt f) s = .next c1 ∧ exec (.cnt g) s1 = .next c2 ∧
      (s3.chan s.mux).tadr = (c2.chan s.mux).tadr ∧ (s4.chan s.mux).tadr = (c1.chan s.mux).tadr ∧
      (s4.chan s.mux).sp = 0

/-! ## Register reads and writes -/

/-- R128: a read of CHCR of every channel. -/
def Obligations.ChcrRead : Prop :=
  ∀ (c : Chan) (s : State), ∃ t, exec (Instr.chanRead c .chcr) s = .next t ∧ t = { s with hostData := t.hostData } ∧
    t.hostData.getLsbD 0 = (s.chan c).chcr.dir ∧ t.hostData.getLsbD 1 = false ∧
    t.hostData.extractLsb' 2 2 = (s.chan c).chcr.mod ∧ t.hostData.extractLsb' 4 2 = (s.chan c).chcr.asp ∧
    t.hostData.getLsbD 6 = (s.chan c).chcr.tte ∧ t.hostData.getLsbD 7 = (s.chan c).chcr.tie ∧
    (t.hostData.getLsbD 8 = true ↔ (s.chan c).phase ≠ .stopped) ∧
    t.hostData.extractLsb' 9 7 = 0#7 ∧ t.hostData.extractLsb' 16 16 = (s.chan c).chcr.tag

/-- R130: a read of MADR, QWC, TADR, ASR0, ASR1 of every channel answers the register's value; of an Undefined one it
answers some value, and QWC's bits 31:16 are 0 either way. -/
def Obligations.ChannelRegisterRead : Prop :=
  ∀ (c : Chan) (s : State),
    (∃ t, exec (Instr.chanRead c .madr) s = .next t ∧ OnlyAnswer s t ∧
      ((s.chan c).madr.defined = true → t.hostData = (s.chan c).madr.val ∧ t.draws = s.draws)) ∧
    (∃ t, exec (Instr.chanRead c .qwc) s = .next t ∧ OnlyAnswer s t ∧ t.hostData.toNat < 2 ^ 16 ∧
      ((s.chan c).qwc.defined = true → t.hostData.toNat = (s.chan c).qwc.val.toNat ∧ t.draws = s.draws)) ∧
    (∃ t, exec (Instr.chanRead c .tadr) s = .next t ∧ OnlyAnswer s t ∧
      ((s.chan c).tadr.defined = true → t.hostData = (s.chan c).tadr.val ∧ t.draws = s.draws)) ∧
    (∃ t, exec (Instr.chanRead c .asr0) s = .next t ∧ OnlyAnswer s t ∧
      ((s.chan c).asr0.defined = true → t.hostData = (s.chan c).asr0.val ∧ t.draws = s.draws)) ∧
    (∃ t, exec (Instr.chanRead c .asr1) s = .next t ∧ OnlyAnswer s t ∧
      ((s.chan c).asr1.defined = true → t.hostData = (s.chan c).asr1.val ∧ t.draws = s.draws))

/-- R130, R22: a read of SADR of channels 8 and 9; bits 31:14 are 0. -/
def Obligations.SadrRead : Prop :=
  ∀ s : State,
    (∃ t, exec .readD8Sadr s = .next t ∧ OnlyAnswer s t ∧ t.hostData.toNat < 2 ^ 14 ∧
      (s.sadr8.defined = true → t.hostData.toNat = s.sadr8.val.toNat ∧ t.draws = s.draws)) ∧
    (∃ t, exec .readD9Sadr s = .next t ∧ OnlyAnswer s t ∧ t.hostData.toNat < 2 ^ 14 ∧
      (s.sadr9.defined = true → t.hostData.toNat = s.sadr9.val.toNat ∧ t.draws = s.draws))

/-- R131: a write of MADR, QWC, TADR, ASR0, ASR1 of a Stopped channel stores the value (of QWC bits 15:0), which is no
longer Undefined, and changes nothing else. -/
def Obligations.ChannelRegisterWrite : Prop :=
  ∀ (c : Chan) (v : Word) (s : State), (s.chan c).phase = .stopped →
    exec (Instr.chanWrite v c .madr) s = .next (s.setChan c { s.chan c with madr := ⟨v, true⟩ }) ∧
    exec (Instr.chanWrite v c .qwc) s =
      .next (s.setChan c { s.chan c with qwc := ⟨BitVec.ofNat 16 (v.toNat % 2 ^ 16), true⟩ }) ∧
    exec (Instr.chanWrite v c .tadr) s = .next (s.setChan c { s.chan c with tadr := ⟨v, true⟩ }) ∧
    exec (Instr.chanWrite v c .asr0) s = .next (s.setChan c { s.chan c with asr0 := ⟨v, true⟩ }) ∧
    exec (Instr.chanWrite v c .asr1) s = .next (s.setChan c { s.chan c with asr1 := ⟨v, true⟩ })

/-- R131, R22: a write of SADR of a Stopped channel 8 or 9 stores bits 13:0 and changes nothing else. -/
def Obligations.SadrWrite : Prop :=
  ∀ (v : Word) (s : State),
    ((s.chan .fromSpr).phase = .stopped →
      exec (.writeD8Sadr v) s = .next { s with sadr8 := ⟨BitVec.ofNat 14 (v.toNat % 2 ^ 14), true⟩ }) ∧
    ((s.chan .toSpr).phase = .stopped →
      exec (.writeD9Sadr v) s = .next { s with sadr9 := ⟨BitVec.ofNat 14 (v.toNat % 2 ^ 14), true⟩ })

/-- R131, R129: while a channel is not Stopped a write of any of its registers but CHCR is refused, in every phase;
and a write of CHCR with STR = 1 is refused while it is Running or Suspended. -/
def Obligations.WriteWhileActiveRefused : Prop :=
  ∀ (c : Chan) (r : ChanReg) (v : Word) (s : State), (s.chan c).phase ≠ .stopped →
    (r ≠ .chcr → exec (Instr.chanWrite v c r) s = .refused .writeWhileActive) ∧
    (c = .fromSpr → exec (.writeD8Sadr v) s = .refused .writeWhileActive) ∧
    (c = .toSpr → exec (.writeD9Sadr v) s = .refused .writeWhileActive) ∧
    ((s.chan c).phase = .running ∨ (s.chan c).phase = .suspended → v.getLsbD 8 = true →
      exec (Instr.chanWrite v c .chcr) s = .refused .writeWhileActive)

/-- R129: a write of CHCR with STR = 0: it stores the configuration of a Stopped channel, is a stop request to a
Running or Suspended one, whatever its other bits, and (with any STR) does nothing to an Errored one. -/
def Obligations.ChcrWriteWithoutStart : Prop :=
  ∀ (c : Chan) (v : Word) (s : State),
    (v.getLsbD 8 = false → (s.chan c).phase = .stopped →
      exec (Instr.chanWrite v c .chcr) s = .next (s.setChan c
        { s.chan c with
          chcr := ⟨v.getLsbD 0, v.extractLsb' 2 2, v.extractLsb' 4 2, v.getLsbD 6, v.getLsbD 7, (s.chan c).chcr.tag⟩ })) ∧
    (v.getLsbD 8 = false → (s.chan c).phase = .running ∨ (s.chan c).phase = .suspended →
      exec (Instr.chanWrite v c .chcr) s = .next (s.setChan c { s.chan c with stopReq := true })) ∧
    (∀ e, (s.chan c).phase = .errored e → exec (Instr.chanWrite v c .chcr) s = .next s)

/-- R87, R129: a write of CHCR with STR = 1 to a Stopped channel starts it: in Normal mode (MOD 0) where QWC and MADR
are not Undefined, with the role that the tables of R120 give it, in Chain mode (MOD 1) where QWC is not Undefined and
MADR is not where QWC is above 0; in both with D_CTRL.MFD = 0. -/
def Obligations.ChcrWriteStarts : Prop :=
  ∀ (c : Chan) (v : Word) (s : State), (s.chan c).phase = .stopped → v.getLsbD 8 = true →
    s.dCtrl.extractLsb' 2 2 = 0#2 → (s.chan c).qwc.defined = true →
    (v.extractLsb' 2 2 = 0#2 → (s.chan c).madr.defined = true →
      exec (Instr.chanWrite v c .chcr) s = .next (s.setChan c
        { s.chan c with
          chcr := ⟨v.getLsbD 0, 0#2, v.extractLsb' 4 2, v.getLsbD 6, v.getLsbD 7, (s.chan c).chcr.tag⟩
          stopReq := false, irqArmed := false, mode := .normal, descOpen := true, endAfter := true
          stallRole := if isSource s.dCtrl c then .publish else if isDrain s.dCtrl c then .check else .none
          phase := .running })) ∧
    (v.extractLsb' 2 2 = 1#2 → ((s.chan c).qwc.val.toNat = 0 ∨ (s.chan c).madr.defined = true) →
      exec (Instr.chanWrite v c .chcr) s = .next (s.setChan c
        { s.chan c with
          chcr := ⟨v.getLsbD 0, 1#2, v.extractLsb' 4 2, v.getLsbD 6, v.getLsbD 7, (s.chan c).chcr.tag⟩
          stopReq := false, irqArmed := false, mode := .chain, sp := 0
          cap := if v.getLsbD 5 then 2 else if v.getLsbD 4 then 1 else 0
          descOpen := decide (0 < (s.chan c).qwc.val.toNat), endAfter := false, stallRole := .none
          phase := .running }))

/-- R87, R141, R142: the starts that are refused or fault, in the order R87 checks them. -/
def Obligations.StartRefusals : Prop :=
  ∀ (c : Chan) (v : Word) (s : State), (s.chan c).phase = .stopped → v.getLsbD 8 = true →
    (v.extractLsb' 2 2 = 2#2 → exec (Instr.chanWrite v c .chcr) s = .refused .interleaveMode) ∧
    (v.extractLsb' 2 2 = 3#2 → exec (Instr.chanWrite v c .chcr) s = .refused .reservedMode) ∧
    (v.getLsbD 3 = false → s.dCtrl.extractLsb' 2 2 ≠ 0#2 →
      exec (Instr.chanWrite v c .chcr) s = .refused .mfifo) ∧
    (v.getLsbD 3 = false → s.dCtrl.extractLsb' 2 2 = 0#2 → (s.chan c).qwc.defined = false →
      exec (Instr.chanWrite v c .chcr) s = .fault .useOfUndefined) ∧
    (v.getLsbD 3 = false → s.dCtrl.extractLsb' 2 2 = 0#2 → (s.chan c).qwc.defined = true →
      (v.getLsbD 2 = false ∨ (s.chan c).qwc.val.toNat ≠ 0) → (s.chan c).madr.defined = false →
      exec (Instr.chanWrite v c .chcr) s = .fault .useOfUndefined)

/-- R132: D_CTRL: a read answers bits 10:0; a write stores them, and is refused only where it sets MFD while some
channel is not Stopped. -/
def Obligations.CtrlAccess : Prop :=
  ∀ (v : Word) (s : State),
    (∃ t, exec .readDCtrl s = .next t ∧ t = { s with hostData := t.hostData } ∧
      t.hostData.toNat = s.dCtrl.toNat) ∧
    (v.extractLsb' 2 2 = 0#2 ∨ (∀ c, (s.chan c).phase = .stopped) →
      exec (.writeDCtrl v) s = .next { s with dCtrl := BitVec.ofNat 11 (v.toNat % 2 ^ 11) }) ∧
    (v.extractLsb' 2 2 ≠ 0#2 → (∃ c, (s.chan c).phase ≠ .stopped) → exec (.writeDCtrl v) s = .refused .mfifo)

/-- R109, R133: a write of D_STAT clears each implemented status bit written as 1, toggles each implemented mask bit
written as 1, and changes nothing else. -/
def Obligations.StatWrite : Prop :=
  ∀ (v : Word) (s : State), ∃ t, exec (.writeDStat v) s = .next t ∧ t = { s with dStat := t.dStat } ∧
    ∀ i, i < 32 → t.dStat.getLsbD i =
      if i ≤ 9 ∨ 13 ≤ i ∧ i ≤ 15 then s.dStat.getLsbD i && !v.getLsbD i
      else if 16 ≤ i ∧ i ≤ 25 ∨ 29 ≤ i then xor (s.dStat.getLsbD i) (v.getLsbD i)
      else s.dStat.getLsbD i

/-- R110, R133: a read of D_STAT answers every implemented bit, the status bits whatever the masks, and 0 at bits 12:10
and 28:26, with no side effect. -/
def Obligations.StatRead : Prop :=
  ∀ s : State, ∃ t, exec .readDStat s = .next t ∧ t = { s with hostData := t.hostData } ∧
    ∀ i, i < 32 → t.hostData.getLsbD i =
      if 10 ≤ i ∧ i ≤ 12 ∨ 26 ≤ i ∧ i ≤ 28 then false else s.dStat.getLsbD i

/-- R134: D_PCR: a read and a write of the bits that exist. -/
def Obligations.PcrAccess : Prop :=
  ∀ (v : Word) (s : State),
    (∃ t, exec .readDPcr s = .next t ∧ t = { s with hostData := t.hostData } ∧
      ∀ i, i < 32 → t.hostData.getLsbD i =
        if 10 ≤ i ∧ i ≤ 15 ∨ 26 ≤ i ∧ i ≤ 30 then false else s.dPcr.getLsbD i) ∧
    exec (.writeDPcr v) s = .next { s with dPcr := v &&& 0x83FF03FF#32 }

/-- R135: D_STADR: a write stores bits 30:0 and the register is no longer Undefined; a read answers them, bit 31 as 0,
also where the register is Undefined. -/
def Obligations.StadrAccess : Prop :=
  ∀ (v : Word) (s : State),
    (∃ t, exec .readDStadr s = .next t ∧ OnlyAnswer s t ∧ t.hostData.toNat < 2 ^ 31 ∧
      (s.dStadr.defined = true → t.hostData.toNat = s.dStadr.val.toNat ∧ t.draws = s.draws)) ∧
    exec (.writeDStadr v) s = .next { s with dStadr := ⟨BitVec.ofNat 31 (v.toNat % 2 ^ 31), true⟩ }

/-- R127: the registers that are out of scope: every access, a read and a write, is refused. -/
def Obligations.OutOfScopeRegistersRefused : Prop :=
  ∀ (a : AccessKind) (s : State),
    exec (.accessDSqwcRefused a) s = .refused .unmappedRegister ∧
    exec (.accessDRbsrRefused a) s = .refused .unmappedRegister ∧
    exec (.accessDRborRefused a) s = .refused .unmappedRegister ∧
    exec (.accessDEnablerRefused a) s = .refused .unmappedRegister ∧
    exec (.accessDEnablewRefused a) s = .refused .unmappedRegister

/-- R126, R127, R118: an access that is not 32 bits wide at a multiple of 4 is refused as AccessForm, whatever it
addresses; one that is, at an address where no register stands, as UnmappedRegister. That a channel numbered NCH or
above has no registers is the model's choice (notes/assumptions/22.md). -/
def Obligations.AccessFormsRefused : Prop :=
  ∀ (a : HostAccess) (s : State), Unmarked s →
    (a.width ≠ .w32 ∨ a.addr.toNat % 4 ≠ 0 → step (given s (.host a)) = .refused .accessForm) ∧
    (a.width = .w32 → a.addr.toNat % 4 = 0 → (∀ r, s.cfg.hasReg r = true → s.cfg.regs.addr r ≠ a.addr) →
      step (given s (.host a)) = .refused .unmappedRegister)

/-! ## D_STAT as a whole -/

/-- R108, R125: an external input raises its bit, whatever the masks, and changes nothing else. -/
def Obligations.ExternalInputsRaise : Prop :=
  ∀ s : State, Unmarked s →
    (∃ t, step (given s .busErrorIn) = .next t ∧ StatSet 15 s t ∧ t = { s with dStat := t.dStat }) ∧
    (∃ t, step (given s .mfifoEmptyIn) = .next t ∧ StatSet 14 s t ∧ t = { s with dStat := t.dStat })

/-- R124, R111, R112: the interrupt output is 1 exactly where some implemented status bit and its mask bit are both
1. -/
def Obligations.InterruptOutput : Prop :=
  ∀ s : State, s.dmacIrq = true ↔
    ∃ i, (i ≤ 9 ∨ 13 ≤ i ∧ i ≤ 15) ∧ s.dStat.getLsbD i = true ∧ s.dStat.getLsbD (i + 16) = true

/-- R113: a raise and a host write of D_STAT, in either order: a bit that is raised stays raised unless the write
clears that very bit after it. -/
def Obligations.RaiseSurvivesOtherWrites : Prop :=
  ∀ (d v : Word) (b : StatusBit),
    (statRaise (statWrite d v) b).getLsbD b.pos = true ∧
    ((statWrite (statRaise d b) v).getLsbD b.pos = !v.getLsbD b.pos) ∧
    ∀ i, i < 32 → i ≠ b.pos →
      (statRaise (statWrite d v) b).getLsbD i = (statWrite (statRaise d b) v).getLsbD i

/-! ## The channel's own steps -/

/-- A step runs the decoded access: a host access whose address is that of register `r` is the meaning of the read or
write of `r` (R118). -/
def Obligations.StepRunsDecodedAccess : Prop :=
  ∀ (s : State) (a : HostAccess) (r : RegName), Unmarked s → a.width = .w32 → a.addr.toNat % 4 = 0 →
    s.cfg.find a.addr = some r → step (given s (.host a)) = exec (Instr.ofAccess r a.kind) s

/-- A step runs the decoded tag: where channel `c` may take its tag step and the 16 bytes at its TADR decode to `i`,
the step is `exec i` on the state with the channel selected and the read in the event history (R91, R37). The direction
that decodes kind code 0 is R17's. -/
def Obligations.StepRunsDecodedTag : Prop :=
  ∀ (s : State) (c : Chan) (i : Instr), Unmarked s → s.chanOn c = true →
    (s.chan c).phase = .running → (s.chan c).mode = .chain → (s.chan c).qwc = ⟨0#16, true⟩ →
    (s.chan c).descOpen = false → (s.chan c).stopReq = false → (s.chan c).tadr.defined = true →
    (s.chan c).tadr.val.toNat % 16 = 0 →
    addrOf (s.chan c).tadr.val + 16
      ≤ (if regOf (s.chan c).tadr.val then s.cfg.sprSize else s.cfg.memSize) →
    decodeTagBytes
        ((List.range 16).map fun j => s.readByte (if regOf (s.chan c).tadr.val then .scratchPad else .memory)
          (addrOf (s.chan c).tadr.val + j))
        (directionOf s c) (s.chan c).chcr.tte = .ok i →
    step (given s (.chan c .tagStep)) = exec i
      { s with
        mux := c
        events := s.events ++ [.tagRead c (if regOf (s.chan c).tadr.val then .scratchPad else .memory)
          (BitVec.ofNat 31 (addrOf (s.chan c).tadr.val))] }

/-- R144 (a), R91, R141: the errors of a tag step in their order: an Undefined TADR is a model fault, then a misaligned
one the channel error MisalignedAddress before any read, then a read out of range a model fault, then a malformed tag
the channel error MalformedTag after the read. -/
def Obligations.TagStepErrorOrder : Prop :=
  ∀ (s : State) (c : Chan), Unmarked s → s.chanOn c = true →
    (s.chan c).phase = .running → (s.chan c).mode = .chain → (s.chan c).qwc = ⟨0#16, true⟩ →
    (s.chan c).descOpen = false → (s.chan c).stopReq = false →
    ((s.chan c).tadr.defined = false → step (given s (.chan c .tagStep)) = .fault .useOfUndefined) ∧
    ((s.chan c).tadr.defined = true → (s.chan c).tadr.val.toNat % 16 ≠ 0 →
      ∃ t, step (given s (.chan c .tagStep)) = .next t ∧ ErrorDone s t c .misalignedAddress) ∧
    ((s.chan c).tadr.defined = true → (s.chan c).tadr.val.toNat % 16 = 0 →
      (if regOf (s.chan c).tadr.val then s.cfg.sprSize else s.cfg.memSize) < addrOf (s.chan c).tadr.val + 16 →
      step (given s (.chan c .tagStep)) = .fault .tagFetchOutOfRange) ∧
    ((s.chan c).tadr.defined = true → (s.chan c).tadr.val.toNat % 16 = 0 → (s.chan c).chcr.tte = true →
      addrOf (s.chan c).tadr.val + 16
        ≤ (if regOf (s.chan c).tadr.val then s.cfg.sprSize else s.cfg.memSize) →
      (s.readByte (if regOf (s.chan c).tadr.val then .scratchPad else .memory)
        (addrOf (s.chan c).tadr.val + 4)).toNat % 16 ≠ 0 →
      ∃ t, step (given s (.chan c .tagStep)) = .next t ∧
        ErrorDone
          { s with
            mux := c
            events := s.events ++ [.tagRead c (if regOf (s.chan c).tadr.val then .scratchPad else .memory)
              (BitVec.ofNat 31 (addrOf (s.chan c).tadr.val))] }
          t c (.malformedTag .misaligned))

/-- R88, R121, R122, R22, R141: a turn that would be a transfer slice of `n` quadwords, at most QWC of them. It is a
model fault where the stall check of a checked descriptor meets an Undefined D_STADR, or the slice of channel 8 or 9 an
Undefined SADR. Else, where a checked descriptor stays below the boundary, MADR moves on within 31 bits, QWC goes down,
SADR of channels 8 and 9 moves on within 14 bits, a publishing descriptor writes D_STADR, and nothing else changes. -/
def Obligations.SliceStep : Prop :=
  ∀ (s : State) (c : Chan) (n : Nat), Unmarked s → s.chanOn c = true →
    (s.chan c).phase = .running → (s.chan c).qwc.defined = true → (s.chan c).madr.defined = true →
    1 ≤ n → n ≤ (s.chan c).qwc.val.toNat →
    ((s.chan c).stallRole = .check → s.dStadr.defined = false →
      step (given s (.chan c (.slice n))) = .fault .useOfUndefined) ∧
    (((s.chan c).stallRole = .check → belowBoundary s c n) →
      (c = .fromSpr ∧ s.sadr8.defined = false ∨ c = .toSpr ∧ s.sadr9.defined = false) →
      step (given s (.chan c (.slice n))) = .fault .useOfUndefined) ∧
    (((s.chan c).stallRole = .check → belowBoundary s c n) →
      (c = .fromSpr → s.sadr8.defined = true) → (c = .toSpr → s.sadr9.defined = true) →
      ∃ t, step (given s (.chan c (.slice n))) = .next t ∧
        t.chan c =
          { s.chan c with
            madr := ⟨atRegion (regOf (s.chan c).madr.val) (addrOf (s.chan c).madr.val + 16 * n), true⟩
            qwc := ⟨BitVec.ofNat 16 ((s.chan c).qwc.val.toNat - n), true⟩ } ∧
        t.sadr8 = (if c = .fromSpr then ⟨BitVec.ofNat 14 (s.sadr8.val.toNat + 16 * n), true⟩ else s.sadr8) ∧
        t.sadr9 = (if c = .toSpr then ⟨BitVec.ofNat 14 (s.sadr9.val.toNat + 16 * n), true⟩ else s.sadr9) ∧
        t.dStadr = (if (s.chan c).stallRole = .publish
          then ⟨BitVec.ofNat 31 (addrOf (s.chan c).madr.val + 16 * n), true⟩ else s.dStadr) ∧
        t.dStat = s.dStat ∧ t.events = s.events ∧ t.hostData = s.hostData ∧ t.mux = s.mux ∧
        OtherChannels c s t ∧ SameControl s t)

/-- R122: the stall drain never moves its MADR past the published boundary: whatever slice a checked channel takes,
from any state, its address afterwards is at most D_STADR. -/
def Obligations.DrainNeverPassesBoundary : Prop :=
  ∀ (s t : State) (c : Chan) (n : Nat), Unmarked s → (s.chan c).stallRole = .check → s.dStadr.defined = true →
    step (given s (.chan c (.slice n))) = .next t → t ≠ s →
    addrOf (t.chan c).madr.val ≤ t.dStadr.val.toNat ∧
      addrOf (t.chan c).madr.val = addrOf (s.chan c).madr.val + 16 * n

/-- R93, R94, R122, R141: a checked channel with quadwords left and no room below the boundary suspends, raising SIS; a
Suspended one with room for a quadword resumes, with no other write; both turns are a model fault where the stall check
meets an Undefined D_STADR. -/
def Obligations.SuspendAndResume : Prop :=
  ∀ (s : State) (c : Chan), Unmarked s → s.chanOn c = true → (s.chan c).madr.defined = true →
    (s.chan c).stallRole = .check →
    ((s.chan c).phase = .running → (s.chan c).qwc.defined = true → 0 < (s.chan c).qwc.val.toNat →
      (s.dStadr.defined = false → step (given s (.chan c .suspend)) = .fault .useOfUndefined) ∧
      (s.dStadr.defined = true → s.dStadr.val.toNat < addrOf (s.chan c).madr.val + 16 →
        ∃ t, step (given s (.chan c .suspend)) = .next t ∧ t.chan c = { s.chan c with phase := .suspended } ∧
          StatSet 13 s t ∧ t.events = s.events ∧ OnlyChannel c s t)) ∧
    ((s.chan c).phase = .suspended →
      (s.dStadr.defined = false → step (given s (.chan c .resume)) = .fault .useOfUndefined) ∧
      (belowBoundary s c 1 →
        step (given s (.chan c .resume)) = .next (s.setChan c { s.chan c with phase := .running })))

/-- R89, R90, R24: the descriptor end: an armed descriptor raises the channel's status bit here; the channel completes
where the descriptor is the last, or where it was armed and IRQ_ENDS_CHAIN; a completion raises the bit where
CIS_ON_COMPLETION; MADR, QWC, TADR, the stack and CHCR keep their values. -/
def Obligations.DescriptorEnd : Prop :=
  ∀ (s : State) (c : Chan), Unmarked s → s.chanOn c = true → (s.chan c).phase = .running →
    (s.chan c).qwc = ⟨0#16, true⟩ → (s.chan c).descOpen = true →
    ∃ t, step (given s (.chan c .descEnd)) = .next t ∧ t.events = s.events ∧ OnlyChannel c s t ∧
      ((s.chan c).endAfter = true ∨ (s.chan c).irqArmed = true ∧ s.cfg.irqEndsChain = true →
        t.chan c =
          { s.chan c with
            descOpen := false, irqArmed := false, phase := .stopped, stallRole := .none, stopReq := false } ∧
        ((s.chan c).irqArmed = true ∨ s.cfg.cisOnCompletion = true → StatSet c.num s t) ∧
        ((s.chan c).irqArmed = false → s.cfg.cisOnCompletion = false → t.dStat = s.dStat)) ∧
      ((s.chan c).endAfter = false → ((s.chan c).irqArmed = false ∨ s.cfg.irqEndsChain = false) →
        t.chan c = { s.chan c with descOpen := false, irqArmed := false } ∧
        ((s.chan c).irqArmed = true → StatSet c.num s t) ∧
        ((s.chan c).irqArmed = false → t.dStat = s.dStat))

/-- R95, R96: the stop step of a Running or Suspended channel with a stop request, and the report step of an Errored
channel: Stopped, with nothing pending, no status bit raised, MADR, QWC, TADR and the stack kept. -/
def Obligations.StopAndReport : Prop :=
  ∀ (s : State) (c : Chan), Unmarked s → s.chanOn c = true →
    ((s.chan c).stopReq = true → (s.chan c).phase = .running ∨ (s.chan c).phase = .suspended →
      step (given s (.chan c .stop)) = .next (s.setChan c
        { s.chan c with
          phase := .stopped, stopReq := false, descOpen := false, irqArmed := false, stallRole := .none })) ∧
    (∀ e, (s.chan c).phase = .errored e →
      step (given s (.chan c .report)) = .next (s.setChan c
        { s.chan c with
          phase := .stopped, stopReq := false, descOpen := false, irqArmed := false, stallRole := .none }))

/-- R116, R85: a channel is enabled exactly where DMAE = 1 and PCE = 0 or its CDE bit is 1; one that D_CTRL.DMAE or
D_PCR holds, and a Stopped one, take no step: every turn of theirs leaves the state as it is. -/
def Obligations.HeldAndStoppedChannelsWait : Prop :=
  ∀ (s : State) (c : Chan),
    (s.chanOn c = true ↔
      s.dCtrl.getLsbD 0 = true ∧ (s.dPcr.getLsbD 31 = false ∨ s.dPcr.getLsbD (16 + c.num) = true)) ∧
    ∀ k : ChanStep, Unmarked s →
      (s.dCtrl.getLsbD 0 = false ∨ s.dPcr.getLsbD 31 = true ∧ s.dPcr.getLsbD (16 + c.num) = false ∨
        (s.chan c).phase = .stopped) →
      step (given s (.chan c k)) = .next s

/-- R91, R155: a stop request takes effect before the next tag fetch: no step taken with a stop request pending on
channel `c` reads a tag for `c`. -/
def Obligations.StopRequestBlocksFetch : Prop :=
  ∀ (s t : State) (c : Chan), (s.chan c).stopReq = true → step s = .next t →
    ∀ e ∈ t.events.drop s.events.length, ∀ r a, e ≠ .tagRead c r a

/-- R97, R83, R90: an End tag without data, then its descriptor end: Stopped, the stack empty, TADR still the End
tag's own address, the completion raised where CIS_ON_COMPLETION. -/
def Obligations.EndStopsWithEmptyStack : Prop :=
  ∀ (f : TagFields) (s t : State), Unmarked s → s.chanOn s.mux = true → (s.chan s.mux).phase = .running →
    f.qwc = 0#16 → exec (.endTag f) s = .next t →
    ∃ u, step (given t (.chan s.mux .descEnd)) = .next u ∧ (u.chan s.mux).phase = .stopped ∧
      (u.chan s.mux).sp = 0 ∧ (u.chan s.mux).tadr = (s.chan s.mux).tadr ∧
      (s.cfg.cisOnCompletion = true → u.dStat.getLsbD s.mux.num = true)

/-! ## The machine as a whole -/

/-- The machine after reset keeps the invariant. -/
def Obligations.ResetMeetsInvariant : Prop := State.reset.Inv

/-- R151: what reset leaves, as the spec gives it; no step of any channel is enabled. The parameters are at the defaults
of R8, R15 and R17; that the state holds them, and that reset gives them these values, is THE MODEL'S CHOICE
(notes/assumptions/7.md). -/
def Obligations.ResetState : Prop :=
  (∀ c k, State.reset.stepReady c k = some false ∧ State.reset.chanOn c = false) ∧
  (∀ c, (State.reset.chan c).phase = .stopped ∧ (State.reset.chan c).chcrRead = 0#32 ∧
    (State.reset.chan c).madr.defined = false ∧ (State.reset.chan c).qwc.defined = false ∧
    (State.reset.chan c).tadr.defined = false ∧ (State.reset.chan c).asr0.defined = false ∧
    (State.reset.chan c).asr1.defined = false ∧ (State.reset.chan c).mode = .normal ∧
    (State.reset.chan c).sp = 0 ∧ (State.reset.chan c).cap = 0 ∧ (State.reset.chan c).descOpen = false ∧
    (State.reset.chan c).endAfter = false ∧ (State.reset.chan c).irqArmed = false ∧
    (State.reset.chan c).stopReq = false ∧ (State.reset.chan c).stallRole = .none) ∧
  State.reset.sadr8.defined = false ∧ State.reset.sadr9.defined = false ∧ State.reset.dCtrl = 0#11 ∧
  State.reset.dStat = 0#32 ∧ State.reset.dPcr = 0#32 ∧ State.reset.dStadr.defined = false ∧
  State.reset.events = [] ∧ State.reset.refused = false ∧ State.reset.faulted = false ∧
  State.reset.dmacIrq = false ∧ DefaultParameters State.reset.cfg

/-- THE INVARIANT (the model's own wording of what R100 to R102, R107, R134 and R87 to R96 keep): every step, of every
agent, from every state that meets it, leaves a state that meets it. -/
def Obligations.StepKeepsInvariant : Prop :=
  ∀ s t : State, s.Inv → step s = .next t → t.Inv

/-- R102, R33: in a state that meets the invariant no turn of a channel uses an Undefined register but a TADR never
written, a SADR never written or a D_STADR never written. -/
def Obligations.UndefinedUsesOfTheInvariant : Prop :=
  ∀ (s : State) (c : Chan) (k : ChanStep), Unmarked s → s.Inv →
    step (given s (.chan c k)) = .fault .useOfUndefined →
    (k = .tagStep ∧ (s.chan c).tadr.defined = false) ∨
    ((∃ n, k = .slice n) ∧ (c = .fromSpr ∧ s.sadr8.defined = false ∨ c = .toSpr ∧ s.sadr9.defined = false)) ∨
    ((s.chan c).stallRole = .check ∧ s.dStadr.defined = false)

/-- R86, R140: a channel's turn leaves every other channel, its SADR and every byte of memory as they were, and
D_CTRL, D_PCR and the parameters; D_STADR too, unless the turn is a slice of a publishing descriptor. -/
def Obligations.ChannelsAreIsolated : Prop :=
  ∀ (s t : State) (c : Chan) (k : ChanStep), step (given s (.chan c k)) = .next t →
    OtherChannels c s t ∧ SameControl s t ∧
    (c ≠ .fromSpr → t.sadr8 = s.sadr8) ∧ (c ≠ .toSpr → t.sadr9 = s.sadr9) ∧
    (t.dStadr = s.dStadr ∨ (∃ n, k = .slice n) ∧ (s.chan c).stallRole = .publish)

/-- R140: a channel error of one channel leaves the enabled steps of every other channel as they were. -/
def Obligations.ErrorsAreLocal : Prop :=
  ∀ (s t : State) (c d : Chan) (r : ErrorReason) (k : ChanStep), ErrorDone s t c r → d ≠ c →
    t.stepReady d k = s.stepReady d k ∧ t.chanOn d = s.chanOn d

/-- R48: the block writes no memory: only a turn of another agent changes a byte. -/
def Obligations.BlockWritesNoMemory : Prop :=
  ∀ s t : State, step s = .next t → (∀ r a bs, s.schedule.head? ≠ some (.memWrite r a bs)) → SameBytes s t

/-- R34, R109, R143: a status bit of D_STAT is cleared only by a host write of 1 to it, and a mask bit is changed only
by a host write of 1 to it. -/
def Obligations.StatClearedOnlyByHost : Prop :=
  ∀ (s t : State) (i : Nat), i < 32 → step s = .next t →
    (i < 16 ∧ s.dStat.getLsbD i = true ∧ t.dStat.getLsbD i = false ∨
      16 ≤ i ∧ t.dStat.getLsbD i ≠ s.dStat.getLsbD i) →
    ∃ a v, s.schedule.head? = some (.host ⟨a, .w32, .write v⟩) ∧ s.cfg.regs.addr .dStat = a ∧ v.getLsbD i = true

/-- R31: the event history only grows, in step order. -/
def Obligations.EventsOnlyGrow : Prop :=
  ∀ s t : State, step s = .next t → ∃ es, t.events = s.events ++ es

/-- A write of memory by another agent, of any number of bytes, is ONE step (R43): all its bytes are read back and every
other byte of either region keeps its value (R46), from every state whose memories are in the canonical form. That the
addresses wrap in 31 bits is the model's choice (notes/assumptions/15.md). -/
def Obligations.MemoryWriteIsSeen : Prop :=
  ∀ (s : State) (r : Region) (a : BitVec 31) (bs : List Byte), Unmarked s → s.mem.wf = true → s.spr.wf = true →
    bs.length ≤ 2 ^ 31 →
    ∃ t, step (given s (.memWrite r a bs)) = .next t ∧
      (∀ i (h : i < bs.length), t.readByte r ((a.toNat + i) % 2 ^ 31) = bs[i]) ∧
      (∀ q x, q ≠ r ∨ (∀ i, i < bs.length → x ≠ (a.toNat + i) % 2 ^ 31) → t.readByte q x = s.readByte q x) ∧
      t = { s with mem := t.mem, spr := t.spr }

/-- R32: a mark is never cleared, and a run with a mark set has no further step; R119: such a state is not final. -/
def Obligations.MarksAreSticky : Prop :=
  ∀ s : State, (s.refused = true ∨ s.faulted = true) →
    (∀ t, step s ≠ .next t) ∧ (s.refused = true → s.after.refused = true) ∧
      (s.faulted = true → s.after.faulted = true) ∧ s.final = false

/-- R119, R41: in a final state with no turn of any agent to come, the block waits: every step leaves the state as it
is. -/
def Obligations.FinalStateWaits : Prop :=
  ∀ s : State, s.final = true → s.schedule = [] → step s = .next s
end

