-- ==== Sys2Proof/Laws/State.lean ====
section
/-! SUPPORT. The fields of the state after each named update, by rfl, and what a channel is after an update, so that no
later proof unfolds a record update. -/

namespace Sys2Proof.Machine

variable (s : State)

/-! ## Channels -/

theorem chanNum_injective {c d : Chan} (h : c.num = d.num) : c = d := by
  cases c <;> cases d <;> first | rfl | (exact absurd h (by decide))

theorem chanNum_ne {c d : Chan} (h : c ≠ d) : c.num ≠ d.num := fun e => h (chanNum_injective e)

theorem chan_mem_all (c : Chan) : c ∈ Chan.all := by cases c <;> decide

@[simp] theorem State.setChan_chan_self (c : Chan) (x : ChannelState) : (s.setChan c x).chan c = x := by
  simp [State.chan, State.setChan]

theorem State.setChan_chan_ne {c d : Chan} (x : ChannelState) (h : d ≠ c) :
    (s.setChan c x).chan d = s.chan d := by
  simp [State.chan, State.setChan, Vector.getElem_set_ne, chanNum_ne (Ne.symm h)]

theorem State.setChan_chan (c d : Chan) (x : ChannelState) :
    (s.setChan c x).chan d = if d = c then x else s.chan d := by
  split
  · next h => subst h; simp
  · next h => exact s.setChan_chan_ne x h

/-! ## `setChan` -/

@[simp] theorem State.setChan_sadr8 (c : Chan) (x : ChannelState) : (s.setChan c x).sadr8 = s.sadr8 := rfl
@[simp] theorem State.setChan_sadr9 (c : Chan) (x : ChannelState) : (s.setChan c x).sadr9 = s.sadr9 := rfl
@[simp] theorem State.setChan_dCtrl (c : Chan) (x : ChannelState) : (s.setChan c x).dCtrl = s.dCtrl := rfl
@[simp] theorem State.setChan_dStat (c : Chan) (x : ChannelState) : (s.setChan c x).dStat = s.dStat := rfl
@[simp] theorem State.setChan_dPcr (c : Chan) (x : ChannelState) : (s.setChan c x).dPcr = s.dPcr := rfl
@[simp] theorem State.setChan_dStadr (c : Chan) (x : ChannelState) : (s.setChan c x).dStadr = s.dStadr := rfl
@[simp] theorem State.setChan_events (c : Chan) (x : ChannelState) : (s.setChan c x).events = s.events := rfl
@[simp] theorem State.setChan_refused (c : Chan) (x : ChannelState) : (s.setChan c x).refused = s.refused := rfl
@[simp] theorem State.setChan_faulted (c : Chan) (x : ChannelState) : (s.setChan c x).faulted = s.faulted := rfl
@[simp] theorem State.setChan_mem (c : Chan) (x : ChannelState) : (s.setChan c x).mem = s.mem := rfl
@[simp] theorem State.setChan_spr (c : Chan) (x : ChannelState) : (s.setChan c x).spr = s.spr := rfl
@[simp] theorem State.setChan_cfg (c : Chan) (x : ChannelState) : (s.setChan c x).cfg = s.cfg := rfl
@[simp] theorem State.setChan_hostData (c : Chan) (x : ChannelState) : (s.setChan c x).hostData = s.hostData := rfl
@[simp] theorem State.setChan_mux (c : Chan) (x : ChannelState) : (s.setChan c x).mux = s.mux := rfl
@[simp] theorem State.setChan_schedule (c : Chan) (x : ChannelState) : (s.setChan c x).schedule = s.schedule := rfl
@[simp] theorem State.setChan_draws (c : Chan) (x : ChannelState) : (s.setChan c x).draws = s.draws := rfl
@[simp] theorem State.setChan_readByte (c : Chan) (x : ChannelState) (g : Region) (a : Nat) :
    (s.setChan c x).readByte g a = s.readByte g a := by cases g <;> rfl

/-! ## `emit` -/

@[simp] theorem State.emit_chans (e : Event) : (s.emit e).chans = s.chans := rfl
@[simp] theorem State.emit_sadr8 (e : Event) : (s.emit e).sadr8 = s.sadr8 := rfl
@[simp] theorem State.emit_sadr9 (e : Event) : (s.emit e).sadr9 = s.sadr9 := rfl
@[simp] theorem State.emit_dCtrl (e : Event) : (s.emit e).dCtrl = s.dCtrl := rfl
@[simp] theorem State.emit_dStat (e : Event) : (s.emit e).dStat = s.dStat := rfl
@[simp] theorem State.emit_dPcr (e : Event) : (s.emit e).dPcr = s.dPcr := rfl
@[simp] theorem State.emit_dStadr (e : Event) : (s.emit e).dStadr = s.dStadr := rfl
@[simp] theorem State.emit_events (e : Event) : (s.emit e).events = s.events ++ [e] := rfl
@[simp] theorem State.emit_refused (e : Event) : (s.emit e).refused = s.refused := rfl
@[simp] theorem State.emit_faulted (e : Event) : (s.emit e).faulted = s.faulted := rfl
@[simp] theorem State.emit_mem (e : Event) : (s.emit e).mem = s.mem := rfl
@[simp] theorem State.emit_spr (e : Event) : (s.emit e).spr = s.spr := rfl
@[simp] theorem State.emit_cfg (e : Event) : (s.emit e).cfg = s.cfg := rfl
@[simp] theorem State.emit_hostData (e : Event) : (s.emit e).hostData = s.hostData := rfl
@[simp] theorem State.emit_mux (e : Event) : (s.emit e).mux = s.mux := rfl
@[simp] theorem State.emit_schedule (e : Event) : (s.emit e).schedule = s.schedule := rfl
@[simp] theorem State.emit_draws (e : Event) : (s.emit e).draws = s.draws := rfl
@[simp] theorem State.emit_chan (e : Event) (d : Chan) : (s.emit e).chan d = s.chan d := rfl
@[simp] theorem State.emit_readByte (e : Event) (g : Region) (a : Nat) :
    (s.emit e).readByte g a = s.readByte g a := by cases g <;> rfl

/-! ## `raise` -/

@[simp] theorem State.raise_chans (b : StatusBit) : (s.raise b).chans = s.chans := rfl
@[simp] theorem State.raise_sadr8 (b : StatusBit) : (s.raise b).sadr8 = s.sadr8 := rfl
@[simp] theorem State.raise_sadr9 (b : StatusBit) : (s.raise b).sadr9 = s.sadr9 := rfl
@[simp] theorem State.raise_dCtrl (b : StatusBit) : (s.raise b).dCtrl = s.dCtrl := rfl
@[simp] theorem State.raise_dStat (b : StatusBit) : (s.raise b).dStat = statRaise s.dStat b := rfl
@[simp] theorem State.raise_dPcr (b : StatusBit) : (s.raise b).dPcr = s.dPcr := rfl
@[simp] theorem State.raise_dStadr (b : StatusBit) : (s.raise b).dStadr = s.dStadr := rfl
@[simp] theorem State.raise_events (b : StatusBit) : (s.raise b).events = s.events := rfl
@[simp] theorem State.raise_refused (b : StatusBit) : (s.raise b).refused = s.refused := rfl
@[simp] theorem State.raise_faulted (b : StatusBit) : (s.raise b).faulted = s.faulted := rfl
@[simp] theorem State.raise_mem (b : StatusBit) : (s.raise b).mem = s.mem := rfl
@[simp] theorem State.raise_spr (b : StatusBit) : (s.raise b).spr = s.spr := rfl
@[simp] theorem State.raise_cfg (b : StatusBit) : (s.raise b).cfg = s.cfg := rfl
@[simp] theorem State.raise_hostData (b : StatusBit) : (s.raise b).hostData = s.hostData := rfl
@[simp] theorem State.raise_mux (b : StatusBit) : (s.raise b).mux = s.mux := rfl
@[simp] theorem State.raise_schedule (b : StatusBit) : (s.raise b).schedule = s.schedule := rfl
@[simp] theorem State.raise_draws (b : StatusBit) : (s.raise b).draws = s.draws := rfl
@[simp] theorem State.raise_chan (b : StatusBit) (d : Chan) : (s.raise b).chan d = s.chan d := rfl
@[simp] theorem State.raise_readByte (b : StatusBit) (g : Region) (a : Nat) :
    (s.raise b).readByte g a = s.readByte g a := by cases g <;> rfl

/-! ## `answer` -/

@[simp] theorem State.answer_chans (v : Word) : (s.answer v).chans = s.chans := rfl
@[simp] theorem State.answer_sadr8 (v : Word) : (s.answer v).sadr8 = s.sadr8 := rfl
@[simp] theorem State.answer_sadr9 (v : Word) : (s.answer v).sadr9 = s.sadr9 := rfl
@[simp] theorem State.answer_dCtrl (v : Word) : (s.answer v).dCtrl = s.dCtrl := rfl
@[simp] theorem State.answer_dStat (v : Word) : (s.answer v).dStat = s.dStat := rfl
@[simp] theorem State.answer_dPcr (v : Word) : (s.answer v).dPcr = s.dPcr := rfl
@[simp] theorem State.answer_dStadr (v : Word) : (s.answer v).dStadr = s.dStadr := rfl
@[simp] theorem State.answer_events (v : Word) : (s.answer v).events = s.events := rfl
@[simp] theorem State.answer_refused (v : Word) : (s.answer v).refused = s.refused := rfl
@[simp] theorem State.answer_faulted (v : Word) : (s.answer v).faulted = s.faulted := rfl
@[simp] theorem State.answer_mem (v : Word) : (s.answer v).mem = s.mem := rfl
@[simp] theorem State.answer_spr (v : Word) : (s.answer v).spr = s.spr := rfl
@[simp] theorem State.answer_cfg (v : Word) : (s.answer v).cfg = s.cfg := rfl
@[simp] theorem State.answer_hostData (v : Word) : (s.answer v).hostData = v := rfl
@[simp] theorem State.answer_mux (v : Word) : (s.answer v).mux = s.mux := rfl
@[simp] theorem State.answer_schedule (v : Word) : (s.answer v).schedule = s.schedule := rfl
@[simp] theorem State.answer_draws (v : Word) : (s.answer v).draws = s.draws := rfl
@[simp] theorem State.answer_chan (v : Word) (d : Chan) : (s.answer v).chan d = s.chan d := rfl
@[simp] theorem State.answer_readByte (v : Word) (g : Region) (a : Nat) :
    (s.answer v).readByte g a = s.readByte g a := by cases g <;> rfl

/-! ## `answerReg` -/

@[simp] theorem State.answerReg_chans {w : Nat} (r : UReg w) : (s.answerReg r).chans = s.chans := rfl
@[simp] theorem State.answerReg_sadr8 {w : Nat} (r : UReg w) : (s.answerReg r).sadr8 = s.sadr8 := rfl
@[simp] theorem State.answerReg_sadr9 {w : Nat} (r : UReg w) : (s.answerReg r).sadr9 = s.sadr9 := rfl
@[simp] theorem State.answerReg_dCtrl {w : Nat} (r : UReg w) : (s.answerReg r).dCtrl = s.dCtrl := rfl
@[simp] theorem State.answerReg_dStat {w : Nat} (r : UReg w) : (s.answerReg r).dStat = s.dStat := rfl
@[simp] theorem State.answerReg_dPcr {w : Nat} (r : UReg w) : (s.answerReg r).dPcr = s.dPcr := rfl
@[simp] theorem State.answerReg_dStadr {w : Nat} (r : UReg w) : (s.answerReg r).dStadr = s.dStadr := rfl
@[simp] theorem State.answerReg_events {w : Nat} (r : UReg w) : (s.answerReg r).events = s.events := rfl
@[simp] theorem State.answerReg_refused {w : Nat} (r : UReg w) : (s.answerReg r).refused = s.refused := rfl
@[simp] theorem State.answerReg_faulted {w : Nat} (r : UReg w) : (s.answerReg r).faulted = s.faulted := rfl
@[simp] theorem State.answerReg_mem {w : Nat} (r : UReg w) : (s.answerReg r).mem = s.mem := rfl
@[simp] theorem State.answerReg_spr {w : Nat} (r : UReg w) : (s.answerReg r).spr = s.spr := rfl
@[simp] theorem State.answerReg_cfg {w : Nat} (r : UReg w) : (s.answerReg r).cfg = s.cfg := rfl
@[simp] theorem State.answerReg_hostData {w : Nat} (r : UReg w) : (s.answerReg r).hostData = r.read32 (Config.undefinedRead s.draws) := rfl
@[simp] theorem State.answerReg_mux {w : Nat} (r : UReg w) : (s.answerReg r).mux = s.mux := rfl
@[simp] theorem State.answerReg_schedule {w : Nat} (r : UReg w) : (s.answerReg r).schedule = s.schedule := rfl
@[simp] theorem State.answerReg_draws {w : Nat} (r : UReg w) : (s.answerReg r).draws = if r.defined then s.draws else s.draws + 1 := rfl
@[simp] theorem State.answerReg_chan {w : Nat} (r : UReg w) (d : Chan) : (s.answerReg r).chan d = s.chan d := rfl
@[simp] theorem State.answerReg_readByte {w : Nat} (r : UReg w) (g : Region) (a : Nat) :
    (s.answerReg r).readByte g a = s.readByte g a := by cases g <;> rfl

/-! ## `finishTag` -/

@[simp] theorem State.finishTag_sadr8 (c : Chan) (k : TagKind) (f : TagFields) (ch : ChannelState) : (s.finishTag c k f ch).sadr8 = s.sadr8 := rfl
@[simp] theorem State.finishTag_sadr9 (c : Chan) (k : TagKind) (f : TagFields) (ch : ChannelState) : (s.finishTag c k f ch).sadr9 = s.sadr9 := rfl
@[simp] theorem State.finishTag_dCtrl (c : Chan) (k : TagKind) (f : TagFields) (ch : ChannelState) : (s.finishTag c k f ch).dCtrl = s.dCtrl := rfl
@[simp] theorem State.finishTag_dStat (c : Chan) (k : TagKind) (f : TagFields) (ch : ChannelState) : (s.finishTag c k f ch).dStat = s.dStat := rfl
@[simp] theorem State.finishTag_dPcr (c : Chan) (k : TagKind) (f : TagFields) (ch : ChannelState) : (s.finishTag c k f ch).dPcr = s.dPcr := rfl
@[simp] theorem State.finishTag_dStadr (c : Chan) (k : TagKind) (f : TagFields) (ch : ChannelState) : (s.finishTag c k f ch).dStadr = s.dStadr := rfl
@[simp] theorem State.finishTag_events (c : Chan) (k : TagKind) (f : TagFields) (ch : ChannelState) : (s.finishTag c k f ch).events = s.events ++ [.priorityHint c f.pce] := rfl
@[simp] theorem State.finishTag_refused (c : Chan) (k : TagKind) (f : TagFields) (ch : ChannelState) : (s.finishTag c k f ch).refused = s.refused := rfl
@[simp] theorem State.finishTag_faulted (c : Chan) (k : TagKind) (f : TagFields) (ch : ChannelState) : (s.finishTag c k f ch).faulted = s.faulted := rfl
@[simp] theorem State.finishTag_mem (c : Chan) (k : TagKind) (f : TagFields) (ch : ChannelState) : (s.finishTag c k f ch).mem = s.mem := rfl
@[simp] theorem State.finishTag_spr (c : Chan) (k : TagKind) (f : TagFields) (ch : ChannelState) : (s.finishTag c k f ch).spr = s.spr := rfl
@[simp] theorem State.finishTag_cfg (c : Chan) (k : TagKind) (f : TagFields) (ch : ChannelState) : (s.finishTag c k f ch).cfg = s.cfg := rfl
@[simp] theorem State.finishTag_hostData (c : Chan) (k : TagKind) (f : TagFields) (ch : ChannelState) : (s.finishTag c k f ch).hostData = s.hostData := rfl
@[simp] theorem State.finishTag_mux (c : Chan) (k : TagKind) (f : TagFields) (ch : ChannelState) : (s.finishTag c k f ch).mux = s.mux := rfl
@[simp] theorem State.finishTag_schedule (c : Chan) (k : TagKind) (f : TagFields) (ch : ChannelState) : (s.finishTag c k f ch).schedule = s.schedule := rfl
@[simp] theorem State.finishTag_draws (c : Chan) (k : TagKind) (f : TagFields) (ch : ChannelState) : (s.finishTag c k f ch).draws = s.draws := rfl
@[simp] theorem State.finishTag_readByte (c : Chan) (k : TagKind) (f : TagFields) (ch : ChannelState) (g : Region) (a : Nat) :
    (s.finishTag c k f ch).readByte g a = s.readByte g a := by cases g <;> rfl

/-! ## `channelError` -/

@[simp] theorem State.channelError_sadr8 (c : Chan) (r : ErrorReason) : (s.channelError c r).sadr8 = s.sadr8 := rfl
@[simp] theorem State.channelError_sadr9 (c : Chan) (r : ErrorReason) : (s.channelError c r).sadr9 = s.sadr9 := rfl
@[simp] theorem State.channelError_dCtrl (c : Chan) (r : ErrorReason) : (s.channelError c r).dCtrl = s.dCtrl := rfl
@[simp] theorem State.channelError_dStat (c : Chan) (r : ErrorReason) : (s.channelError c r).dStat = statRaise s.dStat .beis := rfl
@[simp] theorem State.channelError_dPcr (c : Chan) (r : ErrorReason) : (s.channelError c r).dPcr = s.dPcr := rfl
@[simp] theorem State.channelError_dStadr (c : Chan) (r : ErrorReason) : (s.channelError c r).dStadr = s.dStadr := rfl
@[simp] theorem State.channelError_events (c : Chan) (r : ErrorReason) : (s.channelError c r).events = s.events := rfl
@[simp] theorem State.channelError_refused (c : Chan) (r : ErrorReason) : (s.channelError c r).refused = s.refused := rfl
@[simp] theorem State.channelError_faulted (c : Chan) (r : ErrorReason) : (s.channelError c r).faulted = s.faulted := rfl
@[simp] theorem State.channelError_mem (c : Chan) (r : ErrorReason) : (s.channelError c r).mem = s.mem := rfl
@[simp] theorem State.channelError_spr (c : Chan) (r : ErrorReason) : (s.channelError c r).spr = s.spr := rfl
@[simp] theorem State.channelError_cfg (c : Chan) (r : ErrorReason) : (s.channelError c r).cfg = s.cfg := rfl
@[simp] theorem State.channelError_hostData (c : Chan) (r : ErrorReason) : (s.channelError c r).hostData = s.hostData := rfl
@[simp] theorem State.channelError_mux (c : Chan) (r : ErrorReason) : (s.channelError c r).mux = s.mux := rfl
@[simp] theorem State.channelError_schedule (c : Chan) (r : ErrorReason) : (s.channelError c r).schedule = s.schedule := rfl
@[simp] theorem State.channelError_draws (c : Chan) (r : ErrorReason) : (s.channelError c r).draws = s.draws := rfl
@[simp] theorem State.channelError_readByte (c : Chan) (r : ErrorReason) (g : Region) (a : Nat) :
    (s.channelError c r).readByte g a = s.readByte g a := by cases g <;> rfl

/-! ## `report` -/

@[simp] theorem State.report_sadr8 (c : Chan) : (s.report c).sadr8 = s.sadr8 := rfl
@[simp] theorem State.report_sadr9 (c : Chan) : (s.report c).sadr9 = s.sadr9 := rfl
@[simp] theorem State.report_dCtrl (c : Chan) : (s.report c).dCtrl = s.dCtrl := rfl
@[simp] theorem State.report_dStat (c : Chan) : (s.report c).dStat = s.dStat := rfl
@[simp] theorem State.report_dPcr (c : Chan) : (s.report c).dPcr = s.dPcr := rfl
@[simp] theorem State.report_dStadr (c : Chan) : (s.report c).dStadr = s.dStadr := rfl
@[simp] theorem State.report_events (c : Chan) : (s.report c).events = s.events := rfl
@[simp] theorem State.report_refused (c : Chan) : (s.report c).refused = s.refused := rfl
@[simp] theorem State.report_faulted (c : Chan) : (s.report c).faulted = s.faulted := rfl
@[simp] theorem State.report_mem (c : Chan) : (s.report c).mem = s.mem := rfl
@[simp] theorem State.report_spr (c : Chan) : (s.report c).spr = s.spr := rfl
@[simp] theorem State.report_cfg (c : Chan) : (s.report c).cfg = s.cfg := rfl
@[simp] theorem State.report_hostData (c : Chan) : (s.report c).hostData = s.hostData := rfl
@[simp] theorem State.report_mux (c : Chan) : (s.report c).mux = s.mux := rfl
@[simp] theorem State.report_schedule (c : Chan) : (s.report c).schedule = s.schedule := rfl
@[simp] theorem State.report_draws (c : Chan) : (s.report c).draws = s.draws := rfl
@[simp] theorem State.report_readByte (c : Chan) (g : Region) (a : Nat) :
    (s.report c).readByte g a = s.readByte g a := by cases g <;> rfl

/-! ## `stopStep` -/

@[simp] theorem State.stopStep_sadr8 (c : Chan) : (s.stopStep c).sadr8 = s.sadr8 := rfl
@[simp] theorem State.stopStep_sadr9 (c : Chan) : (s.stopStep c).sadr9 = s.sadr9 := rfl
@[simp] theorem State.stopStep_dCtrl (c : Chan) : (s.stopStep c).dCtrl = s.dCtrl := rfl
@[simp] theorem State.stopStep_dStat (c : Chan) : (s.stopStep c).dStat = s.dStat := rfl
@[simp] theorem State.stopStep_dPcr (c : Chan) : (s.stopStep c).dPcr = s.dPcr := rfl
@[simp] theorem State.stopStep_dStadr (c : Chan) : (s.stopStep c).dStadr = s.dStadr := rfl
@[simp] theorem State.stopStep_events (c : Chan) : (s.stopStep c).events = s.events := rfl
@[simp] theorem State.stopStep_refused (c : Chan) : (s.stopStep c).refused = s.refused := rfl
@[simp] theorem State.stopStep_faulted (c : Chan) : (s.stopStep c).faulted = s.faulted := rfl
@[simp] theorem State.stopStep_mem (c : Chan) : (s.stopStep c).mem = s.mem := rfl
@[simp] theorem State.stopStep_spr (c : Chan) : (s.stopStep c).spr = s.spr := rfl
@[simp] theorem State.stopStep_cfg (c : Chan) : (s.stopStep c).cfg = s.cfg := rfl
@[simp] theorem State.stopStep_hostData (c : Chan) : (s.stopStep c).hostData = s.hostData := rfl
@[simp] theorem State.stopStep_mux (c : Chan) : (s.stopStep c).mux = s.mux := rfl
@[simp] theorem State.stopStep_schedule (c : Chan) : (s.stopStep c).schedule = s.schedule := rfl
@[simp] theorem State.stopStep_draws (c : Chan) : (s.stopStep c).draws = s.draws := rfl
@[simp] theorem State.stopStep_readByte (c : Chan) (g : Region) (a : Nat) :
    (s.stopStep c).readByte g a = s.readByte g a := by cases g <;> rfl

/-! ## `resumeStep` -/

@[simp] theorem State.resumeStep_sadr8 (c : Chan) : (s.resumeStep c).sadr8 = s.sadr8 := rfl
@[simp] theorem State.resumeStep_sadr9 (c : Chan) : (s.resumeStep c).sadr9 = s.sadr9 := rfl
@[simp] theorem State.resumeStep_dCtrl (c : Chan) : (s.resumeStep c).dCtrl = s.dCtrl := rfl
@[simp] theorem State.resumeStep_dStat (c : Chan) : (s.resumeStep c).dStat = s.dStat := rfl
@[simp] theorem State.resumeStep_dPcr (c : Chan) : (s.resumeStep c).dPcr = s.dPcr := rfl
@[simp] theorem State.resumeStep_dStadr (c : Chan) : (s.resumeStep c).dStadr = s.dStadr := rfl
@[simp] theorem State.resumeStep_events (c : Chan) : (s.resumeStep c).events = s.events := rfl
@[simp] theorem State.resumeStep_refused (c : Chan) : (s.resumeStep c).refused = s.refused := rfl
@[simp] theorem State.resumeStep_faulted (c : Chan) : (s.resumeStep c).faulted = s.faulted := rfl
@[simp] theorem State.resumeStep_mem (c : Chan) : (s.resumeStep c).mem = s.mem := rfl
@[simp] theorem State.resumeStep_spr (c : Chan) : (s.resumeStep c).spr = s.spr := rfl
@[simp] theorem State.resumeStep_cfg (c : Chan) : (s.resumeStep c).cfg = s.cfg := rfl
@[simp] theorem State.resumeStep_hostData (c : Chan) : (s.resumeStep c).hostData = s.hostData := rfl
@[simp] theorem State.resumeStep_mux (c : Chan) : (s.resumeStep c).mux = s.mux := rfl
@[simp] theorem State.resumeStep_schedule (c : Chan) : (s.resumeStep c).schedule = s.schedule := rfl
@[simp] theorem State.resumeStep_draws (c : Chan) : (s.resumeStep c).draws = s.draws := rfl
@[simp] theorem State.resumeStep_readByte (c : Chan) (g : Region) (a : Nat) :
    (s.resumeStep c).readByte g a = s.readByte g a := by cases g <;> rfl

/-! ## `suspendStep` -/

@[simp] theorem State.suspendStep_sadr8 (c : Chan) : (s.suspendStep c).sadr8 = s.sadr8 := rfl
@[simp] theorem State.suspendStep_sadr9 (c : Chan) : (s.suspendStep c).sadr9 = s.sadr9 := rfl
@[simp] theorem State.suspendStep_dCtrl (c : Chan) : (s.suspendStep c).dCtrl = s.dCtrl := rfl
@[simp] theorem State.suspendStep_dStat (c : Chan) : (s.suspendStep c).dStat = statRaise s.dStat .sis := rfl
@[simp] theorem State.suspendStep_dPcr (c : Chan) : (s.suspendStep c).dPcr = s.dPcr := rfl
@[simp] theorem State.suspendStep_dStadr (c : Chan) : (s.suspendStep c).dStadr = s.dStadr := rfl
@[simp] theorem State.suspendStep_events (c : Chan) : (s.suspendStep c).events = s.events := rfl
@[simp] theorem State.suspendStep_refused (c : Chan) : (s.suspendStep c).refused = s.refused := rfl
@[simp] theorem State.suspendStep_faulted (c : Chan) : (s.suspendStep c).faulted = s.faulted := rfl
@[simp] theorem State.suspendStep_mem (c : Chan) : (s.suspendStep c).mem = s.mem := rfl
@[simp] theorem State.suspendStep_spr (c : Chan) : (s.suspendStep c).spr = s.spr := rfl
@[simp] theorem State.suspendStep_cfg (c : Chan) : (s.suspendStep c).cfg = s.cfg := rfl
@[simp] theorem State.suspendStep_hostData (c : Chan) : (s.suspendStep c).hostData = s.hostData := rfl
@[simp] theorem State.suspendStep_mux (c : Chan) : (s.suspendStep c).mux = s.mux := rfl
@[simp] theorem State.suspendStep_schedule (c : Chan) : (s.suspendStep c).schedule = s.schedule := rfl
@[simp] theorem State.suspendStep_draws (c : Chan) : (s.suspendStep c).draws = s.draws := rfl
@[simp] theorem State.suspendStep_readByte (c : Chan) (g : Region) (a : Nat) :
    (s.suspendStep c).readByte g a = s.readByte g a := by cases g <;> rfl

/-! ## Composite channel writes -/

@[simp] theorem State.finishTag_chan_self (c : Chan) (k : TagKind) (f : TagFields) (ch : ChannelState) :
    (s.finishTag c k f ch).chan c =
      { ch with
        qwc := UReg.written f.qwc
        chcr := { ch.chcr with tag := tagHi16 f k }
        descOpen := true
        irqArmed := f.irq && ch.chcr.tie } := by
  simp [State.finishTag]

theorem State.finishTag_chan_ne {c d : Chan} (k : TagKind) (f : TagFields) (ch : ChannelState) (h : d ≠ c) :
    (s.finishTag c k f ch).chan d = s.chan d := by
  simp [State.finishTag, State.setChan_chan_ne _ _ h]

@[simp] theorem State.channelError_chan_self (c : Chan) (r : ErrorReason) :
    (s.channelError c r).chan c = { s.chan c with phase := .errored r } := by
  simp [State.channelError]

theorem State.channelError_chan_ne {c d : Chan} (r : ErrorReason) (h : d ≠ c) :
    (s.channelError c r).chan d = s.chan d := by
  simp [State.channelError, State.setChan_chan_ne _ _ h]

@[simp] theorem State.report_chan_self (c : Chan) : (s.report c).chan c = (s.chan c).halt := by simp [State.report]

theorem State.report_chan_ne {c d : Chan} (h : d ≠ c) : (s.report c).chan d = s.chan d := s.setChan_chan_ne _ h

@[simp] theorem State.stopStep_chan_self (c : Chan) : (s.stopStep c).chan c = (s.chan c).halt := by simp [State.stopStep]

theorem State.stopStep_chan_ne {c d : Chan} (h : d ≠ c) : (s.stopStep c).chan d = s.chan d := s.setChan_chan_ne _ h

@[simp] theorem State.resumeStep_chan_self (c : Chan) :
    (s.resumeStep c).chan c = { s.chan c with phase := .running } := by simp [State.resumeStep]

theorem State.resumeStep_chan_ne {c d : Chan} (h : d ≠ c) : (s.resumeStep c).chan d = s.chan d := s.setChan_chan_ne _ h

@[simp] theorem State.suspendStep_chan_self (c : Chan) :
    (s.suspendStep c).chan c = { s.chan c with phase := .suspended } := by simp [State.suspendStep]

theorem State.suspendStep_chan_ne {c d : Chan} (h : d ≠ c) : (s.suspendStep c).chan d = s.chan d := by
  simp [State.suspendStep, State.setChan_chan_ne _ _ h]

end Sys2Proof.Machine
end

