-- ==== Sys2Proof/Laws/Flags.lean ====
section
/-! SUPPORT. D_STAT bit by bit: the raise (R108), the host's write and read (R109, R110), the interrupt output
(R124). -/

namespace Sys2Proof.Machine

/-- Where an implemented status bit stands (R107). -/
theorem StatusBit.pos_range (b : StatusBit) : b.pos ≤ 9 ∨ 13 ≤ b.pos ∧ b.pos ≤ 15 := by
  rcases b with c | _ | _ | _
  · cases c <;> decide
  all_goals decide

/-- R108: a raise sets its bit and keeps every other. -/
theorem statRaise_getLsbD (d : Word) (b : StatusBit) (i : Nat) (h : i < 32) :
    (statRaise d b).getLsbD i = (decide (i = b.pos) || d.getLsbD i) := by
  simp only [statRaise, BitVec.getLsbD_or, BitVec.getLsbD_shiftLeft]
  rcases b with c | _ | _ | _
  · cases c <;> simp only [StatusBit.pos, Chan.num] <;> interval_cases i <;> simp
  all_goals (simp only [StatusBit.pos]; interval_cases i <;> simp)

/-- R109, bit by bit. -/
theorem statWrite_getLsbD (d v : Word) (i : Nat) (h : i < 32) :
    (statWrite d v).getLsbD i =
      if i ≤ 9 ∨ 13 ≤ i ∧ i ≤ 15 then d.getLsbD i && !v.getLsbD i
      else if 16 ≤ i ∧ i ≤ 25 ∨ 29 ≤ i then xor (d.getLsbD i) (v.getLsbD i)
      else d.getLsbD i := by
  simp only [statWrite, statusBits, maskBits]
  interval_cases i <;> simp

/-- R110, bit by bit. -/
theorem statRead_getLsbD (d : Word) (i : Nat) (h : i < 32) :
    (statRead d).getLsbD i = if 10 ≤ i ∧ i ≤ 12 ∨ 26 ≤ i ∧ i ≤ 28 then false else d.getLsbD i := by
  simp only [statRead, statusBits, maskBits]
  interval_cases i <;> simp

/-- A value all of whose bits exist in D_STAT keeps that under a raise. -/
theorem statRaise_masked {d : Word} (h : d &&& (statusBits ||| maskBits) = d) (b : StatusBit) :
    statRaise d b &&& (statusBits ||| maskBits) = statRaise d b := by
  have hb : (1#32 <<< b.pos) &&& (statusBits ||| maskBits) = 1#32 <<< b.pos := by
    rcases b with c | _ | _ | _
    · cases c <;> decide
    all_goals decide
  rw [statRaise, BitVec.and_comm, BitVec.and_or_distrib_left, BitVec.and_comm _ d, h, BitVec.and_comm _ (1#32 <<< b.pos),
    hb]

/-- A value all of whose bits exist in D_STAT keeps that under a host write. -/
theorem statWrite_masked {d : Word} (h : d &&& (statusBits ||| maskBits) = d) (v : Word) :
    statWrite d v &&& (statusBits ||| maskBits) = statWrite d v := by
  apply BitVec.eq_of_getLsbD_eq
  intro i hi
  have hd : d.getLsbD i = (d &&& (statusBits ||| maskBits)).getLsbD i := by rw [h]
  rw [BitVec.getLsbD_and, statWrite_getLsbD d v i hi, hd, BitVec.getLsbD_and]
  simp only [statusBits, maskBits]
  interval_cases i <;> simp

/-- R124, R111: the interrupt output by positions. -/
theorem irqLevel_iff (d : Word) :
    irqLevel d = true ↔ ∃ b : StatusBit, d.getLsbD b.pos = true ∧ d.getLsbD (b.pos + 16) = true := by
  have hall : ∀ b, b ∈ StatusBit.all := by
    intro b
    simp only [StatusBit.all, List.mem_append, List.mem_map]
    rcases b with c | _ | _ | _
    · exact .inl ⟨c, chan_mem_all c, rfl⟩
    all_goals simp
  simp only [irqLevel, List.any_eq_true, isPending, Bool.and_eq_true]
  exact ⟨fun ⟨b, _, h⟩ => ⟨b, h⟩, fun ⟨b, h⟩ => ⟨b, hall b, h⟩⟩

end Sys2Proof.Machine
end

