-- ==== Sys2Proof/Laws/Memory.lean ====
section
/-! SUPPORT. The memories: a byte written is read back, every other byte keeps its value, and every write keeps the
canonical form. -/

namespace Sys2Proof.Machine

theorem Memory.wfAbove_tail {m : Memory} {k : Nat} {lo : Option Nat} {b : Byte}
    (h : Memory.wfAbove lo ((k, b) :: m) = true) : Memory.wfAbove (some k) m = true := by
  simp [Memory.wfAbove] at h; exact h.2

theorem Memory.read_below {m : Memory} {k a : Nat} (h : Memory.wfAbove (some k) m = true) (ha : a ≤ k) :
    m.read a = unwrittenByte := by
  induction m generalizing k with
  | nil => rfl
  | cons c m ih =>
    obtain ⟨j, b⟩ := c
    simp [Memory.wfAbove] at h
    simp only [Memory.read, if_neg (show ¬ j = a by omega)]
    exact ih h.2 (by omega)

theorem Memory.read_write_self {m : Memory} {lo : Option Nat} (h : Memory.wfAbove lo m = true) (a : Nat) (b : Byte) :
    (m.write a b).read a = b := by
  induction m generalizing lo with
  | nil => by_cases hb : b = unwrittenByte <;> simp [Memory.write, Memory.read, hb]
  | cons c m ih =>
    obtain ⟨k, v⟩ := c
    have hm := Memory.wfAbove_tail h
    by_cases h1 : a < k
    · by_cases hb : b = unwrittenByte
      · simp only [Memory.write, if_pos h1, if_pos hb, Memory.read, if_neg (show ¬ k = a by omega)]
        rw [Memory.read_below hm (by omega), hb]
      · simp [Memory.write, h1, hb, Memory.read]
    · by_cases h2 : a = k
      · subst h2
        by_cases hb : b = unwrittenByte
        · simp only [Memory.write, if_neg h1, if_pos, if_pos hb]
          rw [Memory.read_below hm (Nat.le_refl _), hb]
        · simp [Memory.write, hb, Memory.read]
      · simp only [Memory.write, if_neg h1, if_neg h2, Memory.read, if_neg (Ne.symm h2)]
        exact ih hm

theorem Memory.read_write_ne (m : Memory) {a x : Nat} (b : Byte) (h : x ≠ a) :
    (m.write a b).read x = m.read x := by
  induction m with
  | nil =>
    by_cases hb : b = unwrittenByte
    · simp [Memory.write, hb]
    · simp [Memory.write, Memory.read, hb, Ne.symm h]
  | cons c m ih =>
    obtain ⟨k, v⟩ := c
    simp only [Memory.write]
    split
    · split
      · rfl
      · simp [Memory.read, Ne.symm h]
    · split
      · next h2 => split <;> simp [Memory.read, ← h2, Ne.symm h]
      · simp [Memory.read, ih]

theorem Memory.write_wfAbove {m : Memory} {lo : Option Nat} (h : Memory.wfAbove lo m = true) {a : Nat} (b : Byte)
    (ha : a < 2 ^ 31) (hlo : ∀ l, lo = some l → l < a) : Memory.wfAbove lo (m.write a b) = true := by
  induction m generalizing lo with
  | nil =>
    by_cases hb : b = unwrittenByte
    · simp [Memory.write, hb, Memory.wfAbove]
    · cases lo <;> simp_all [Memory.write, Memory.wfAbove]
  | cons c m ih =>
    obtain ⟨k, v⟩ := c
    have hm := Memory.wfAbove_tail h
    have hk : (lo.all (fun l => decide (l < k)) = true) ∧ k < 2 ^ 31 ∧ v ≠ unwrittenByte := by
      simp only [Memory.wfAbove, Bool.and_eq_true, decide_eq_true_eq, bne_iff_ne] at h
      exact ⟨h.1.1.1, h.1.1.2, h.1.2⟩
    simp only [Memory.write]
    split
    · next h1 =>
      split
      · exact h
      · next hb =>
        simp only [Memory.wfAbove, Bool.and_eq_true, decide_eq_true_eq, bne_iff_ne, Option.all_some]
        refine ⟨⟨⟨?_, ha⟩, hb⟩, ⟨⟨h1, hk.2.1⟩, hk.2.2⟩, hm⟩
        cases lo with
        | none => rfl
        | some l => simp [hlo l rfl]
    · split
      · next h1 h2 =>
        subst h2
        split
        · cases lo with
          | none =>
            cases m with
            | nil => rfl
            | cons d m =>
              obtain ⟨j, w⟩ := d
              simp only [Memory.wfAbove, Bool.and_eq_true] at hm ⊢
              exact ⟨⟨⟨rfl, hm.1.1.2⟩, hm.1.2⟩, hm.2⟩
          | some l =>
            cases m with
            | nil => rfl
            | cons d m =>
              obtain ⟨j, w⟩ := d
              simp only [Memory.wfAbove, Bool.and_eq_true, decide_eq_true_eq, Option.all_some] at hm ⊢
              exact ⟨⟨⟨by have := hlo l rfl; omega, hm.1.1.2⟩, hm.1.2⟩, hm.2⟩
        · next hb =>
          simp only [Memory.wfAbove, Bool.and_eq_true, decide_eq_true_eq, bne_iff_ne]
          exact ⟨⟨⟨hk.1, ha⟩, hb⟩, hm⟩
      · next h1 h2 =>
        simp only [Memory.wfAbove, Bool.and_eq_true, decide_eq_true_eq, bne_iff_ne]
        exact ⟨⟨⟨hk.1, hk.2.1⟩, hk.2.2⟩, ih hm (by intro l hl; cases hl; omega)⟩

/-- Every write keeps the canonical form. -/
theorem Memory.write_wf {m : Memory} (h : m.wf = true) (a : BitVec 31) (b : Byte) : (m.write a.toNat b).wf = true :=
  Memory.write_wfAbove h b a.isLt (by intro l hl; cases hl)

theorem reset_mem_wf : State.reset.mem.wf = true := rfl

theorem reset_spr_wf : State.reset.spr.wf = true := rfl

variable (s : State)

theorem State.writeByte_mem_wf (h : s.mem.wf = true) (r : Region) (a : BitVec 31) (b : Byte) :
    (s.writeByte r a b).mem.wf = true := by
  cases r
  · exact Memory.write_wf h a b
  · exact h

theorem State.writeByte_spr_wf (h : s.spr.wf = true) (r : Region) (a : BitVec 31) (b : Byte) :
    (s.writeByte r a b).spr.wf = true := by
  cases r
  · exact h
  · exact Memory.write_wf h a b

/-- A byte written is read back. -/
theorem State.readByte_writeByte_self (hm : s.mem.wf = true) (hs : s.spr.wf = true) (r : Region) (a : BitVec 31)
    (b : Byte) : (s.writeByte r a b).readByte r a.toNat = b := by
  cases r
  · exact Memory.read_write_self hm _ _
  · exact Memory.read_write_self hs _ _

/-- Every other byte of either region keeps its value. -/
theorem State.readByte_writeByte_ne (r q : Region) (a : BitVec 31) (x : Nat) (b : Byte)
    (h : q ≠ r ∨ x ≠ a.toNat) : (s.writeByte r a b).readByte q x = s.readByte q x := by
  cases r <;> cases q <;> simp_all [State.writeByte, State.readByte, State.memory, Memory.read_write_ne]

@[simp] theorem State.writeByte_chan (r : Region) (a : BitVec 31) (b : Byte) (d : Chan) :
    (s.writeByte r a b).chan d = s.chan d := by cases r <;> rfl

@[simp] theorem State.writeByte_dStat (r : Region) (a : BitVec 31) (b : Byte) :
    (s.writeByte r a b).dStat = s.dStat := by cases r <;> rfl

@[simp] theorem State.writeByte_dPcr (r : Region) (a : BitVec 31) (b : Byte) :
    (s.writeByte r a b).dPcr = s.dPcr := by cases r <;> rfl

@[simp] theorem State.writeByte_events (r : Region) (a : BitVec 31) (b : Byte) :
    (s.writeByte r a b).events = s.events := by cases r <;> rfl

/-! ## A write of several bytes -/

@[simp] theorem State.writeBytes_chan (r : Region) (a : BitVec 31) (bs : List Byte) (d : Chan) :
    (s.writeBytes r a bs).chan d = s.chan d := by
  induction bs generalizing s a with
  | nil => rfl
  | cons b bs ih => simp [State.writeBytes, ih]

@[simp] theorem State.writeBytes_dStat (r : Region) (a : BitVec 31) (bs : List Byte) :
    (s.writeBytes r a bs).dStat = s.dStat := by
  induction bs generalizing s a with
  | nil => rfl
  | cons b bs ih => simp [State.writeBytes, ih]

@[simp] theorem State.writeBytes_dPcr (r : Region) (a : BitVec 31) (bs : List Byte) :
    (s.writeBytes r a bs).dPcr = s.dPcr := by
  induction bs generalizing s a with
  | nil => rfl
  | cons b bs ih => simp [State.writeBytes, ih]

@[simp] theorem State.writeBytes_events (r : Region) (a : BitVec 31) (bs : List Byte) :
    (s.writeBytes r a bs).events = s.events := by
  induction bs generalizing s a with
  | nil => rfl
  | cons b bs ih => simp [State.writeBytes, ih]

/-- A write of memory changes nothing but the two memories. -/
theorem State.writeBytes_eq (r : Region) (a : BitVec 31) (bs : List Byte) :
    s.writeBytes r a bs = { s with mem := (s.writeBytes r a bs).mem, spr := (s.writeBytes r a bs).spr } := by
  induction bs generalizing s a with
  | nil => rfl
  | cons b bs ih =>
    rw [State.writeBytes, ih]
    cases r <;> rfl

theorem State.writeBytes_wf (hm : s.mem.wf = true) (hs : s.spr.wf = true) (r : Region) (a : BitVec 31)
    (bs : List Byte) : (s.writeBytes r a bs).mem.wf = true ∧ (s.writeBytes r a bs).spr.wf = true := by
  induction bs generalizing s a with
  | nil => exact ⟨hm, hs⟩
  | cons b bs ih => exact ih _ (s.writeByte_mem_wf hm r a b) (s.writeByte_spr_wf hs r a b) _

/-- A byte outside those written keeps its value. -/
theorem State.readByte_writeBytes_ne (r q : Region) (a : BitVec 31) (bs : List Byte) (x : Nat)
    (h : q ≠ r ∨ ∀ i, i < bs.length → x ≠ (a.toNat + i) % 2 ^ 31) :
    (s.writeBytes r a bs).readByte q x = s.readByte q x := by
  induction bs generalizing s a with
  | nil => rfl
  | cons b bs ih =>
    rw [State.writeBytes, ih]
    · apply State.readByte_writeByte_ne
      refine h.imp id fun h => ?_
      have := h 0 (by simp)
      rwa [Nat.add_zero, Nat.mod_eq_of_lt a.isLt] at this
    · refine h.imp id fun h i hi => ?_
      have := h (i + 1) (by simpa using hi)
      simpa [BitVec.toNat_add, Nat.add_assoc, Nat.add_comm 1 i] using this

/-- Every byte written is read back, where the write does not wrap onto itself. -/
theorem State.readByte_writeBytes (hm : s.mem.wf = true) (hs : s.spr.wf = true) (r : Region) (a : BitVec 31)
    (bs : List Byte) (hl : bs.length ≤ 2 ^ 31) (i : Nat) (hi : i < bs.length) :
    (s.writeBytes r a bs).readByte r ((a.toNat + i) % 2 ^ 31) = bs[i] := by
  induction bs generalizing s a i with
  | nil => simp at hi
  | cons b bs ih =>
    simp only [List.length_cons] at hl hi
    have ha := a.isLt
    rw [State.writeBytes]
    cases i with
    | zero =>
      rw [State.readByte_writeBytes_ne]
      · rw [Nat.add_zero, Nat.mod_eq_of_lt ha]
        exact s.readByte_writeByte_self hm hs r a b
      · right
        intro j hj
        rw [BitVec.toNat_add]
        simp only [BitVec.toNat_ofNat]
        omega
    | succ i =>
      have := ih _ (s.writeByte_mem_wf hm r a b) (s.writeByte_spr_wf hs r a b) (a + 1#31) (by omega) i (by omega)
      rw [BitVec.toNat_add] at this
      simp only [BitVec.toNat_ofNat] at this
      rw [show (a.toNat + (i + 1)) % 2 ^ 31 = ((a.toNat + 1 % 2 ^ 31) % 2 ^ 31 + i) % 2 ^ 31 by omega]
      simpa using this

/-! ## Tag fetches -/

@[simp] theorem State.readBytes_length (r : Region) (a n : Nat) : (s.readBytes r a n).length = n := by
  induction n generalizing a with
  | zero => rfl
  | succ n ih => simp [State.readBytes, ih]

/-- A tag fetch answers the region's own bytes, exactly where they are in reach (R36). -/
theorem State.memRead16_eq_some {r : Region} {a : BitVec 31} {bs : List Byte} :
    s.memRead16 r a = some bs ↔ a.toNat + 16 ≤ regionSize s.cfg r ∧ bs = s.readBytes r a.toNat 16 := by
  unfold State.memRead16
  split
  · next h => simp [h, eq_comm]
  · next h => simp [h]

end Sys2Proof.Machine
end

