-- ==== Sys2Proof/Laws/Encoding.lean ====
section
/-! SUPPORT. Small facts about the encodings: bytes and the 128-bit value, the bits and fields of an encoded tag, the
kind codes, and the names of operations. -/

namespace Sys2Proof

theorem bytesOfNat_length (k n : Nat) : (bytesOfNat k n).length = k := by
  induction k generalizing n with
  | zero => rfl
  | succ k ih => simp [bytesOfNat, ih]

theorem natOfBytes_bytesOfNat (k n : Nat) : natOfBytes (bytesOfNat k n) = n % 256 ^ k := by
  induction k generalizing n with
  | zero => simp [bytesOfNat, natOfBytes, Nat.mod_one]
  | succ k ih =>
    have h : (256 : Nat) ^ (k + 1) = 256 * 256 ^ k := by rw [Nat.pow_succ, Nat.mul_comm]
    rw [bytesOfNat, natOfBytes, ih, BitVec.toNat_ofNat, h, Nat.mod_mul]

/-- The 16 bytes of a tag hold all its bits (R38). -/
theorem rawOfBytes_bytesOfRaw (raw : BitVec 128) : rawOfBytes (bytesOfRaw raw) = raw := by
  apply BitVec.eq_of_toNat_eq
  rw [rawOfBytes, bytesOfRaw, natOfBytes_bytesOfNat, BitVec.toNat_ofNat]
  have := raw.isLt
  omega

theorem bytesOfRaw_length (raw : BitVec 128) : (bytesOfRaw raw).length = 16 := bytesOfNat_length _ _

/-- R38: byte `k` of a list holds bits 8k+7:8k of its number. -/
theorem natOfBytes_byte (bs : List Byte) (k : Nat) :
    natOfBytes bs / 256 ^ k % 256 = ((bs[k]?).getD 0#8).toNat := by
  induction bs generalizing k with
  | nil => simp [natOfBytes]
  | cons b bs ih =>
    cases k with
    | zero =>
      have := b.isLt
      simp only [natOfBytes, Nat.pow_zero, Nat.div_one, List.getElem?_cons_zero, Option.getD_some]
      omega
    | succ k =>
      have := b.isLt
      rw [natOfBytes, Nat.pow_succ', ← Nat.div_div_eq_div_mul, List.getElem?_cons_succ, ← ih k]
      congr 2
      omega

/-- R38, R67: the low four bits of a fetched tag's address field are those of its byte 4. -/
theorem rawOfBytes_addrLow (bs : List Byte) :
    ((rawOfBytes bs).extractLsb' 32 31).extractLsb' 0 4 = 0#4 ↔ ((bs[4]?).getD 0#8).toNat % 16 = 0 := by
  rw [← natOfBytes_byte bs 4, ← BitVec.toNat_inj]
  simp only [rawOfBytes, BitVec.extractLsb'_toNat, BitVec.toNat_ofNat, Nat.shiftRight_eq_div_pow]
  omega

/-- Every bit of an encoded tag: the layout of R50. -/
theorem encodeFields_getLsbD (k : TagKind) (f : TagFields) (i : Nat) :
    (encodeFields k f).getLsbD i =
      if i < 16 then f.qwc.getLsbD i
      else if i < 26 then f.rsv.getLsbD (i - 16)
      else if i < 28 then f.pce.getLsbD (i - 26)
      else if i < 31 then k.code.getLsbD (i - 28)
      else if i < 32 then f.irq
      else if i < 63 then f.addr.getLsbD (i - 32)
      else if i < 64 then f.spr
      else false := by
  simp only [encodeFields, encodeTag, BitVec.getLsbD_or, BitVec.getLsbD_setWidth, BitVec.getLsbD_shiftLeft,
    BitVec.getLsbD_ofBool]
  by_cases h : i < 64
  · interval_cases i <;> simp [BitVec.getLsbD_of_ge]
  · have h1 := BitVec.getLsbD_of_ge f.rsv (i - 16) (by omega)
    simp [h1, h, show ¬ i < 16 by omega, show ¬ i < 26 by omega, show ¬ i < 28 by omega, show ¬ i < 31 by omega,
      show ¬ i < 32 by omega, show ¬ i < 63 by omega]

section Fields
variable (k : TagKind) (f : TagFields)

theorem encodeFields_qwc : (encodeFields k f).extractLsb' 0 16 = f.qwc := by
  apply BitVec.eq_of_getLsbD_eq
  intro i hi
  rw [BitVec.getLsbD_extractLsb', encodeFields_getLsbD, if_pos (by omega)]
  simp [hi]

theorem encodeFields_rsv : (encodeFields k f).extractLsb' 16 10 = f.rsv := by
  apply BitVec.eq_of_getLsbD_eq
  intro i hi
  rw [BitVec.getLsbD_extractLsb', encodeFields_getLsbD, if_neg (by omega), if_pos (by omega)]
  simp [hi]

theorem encodeFields_pce : (encodeFields k f).extractLsb' 26 2 = f.pce := by
  apply BitVec.eq_of_getLsbD_eq
  intro i hi
  rw [BitVec.getLsbD_extractLsb', encodeFields_getLsbD, if_neg (by omega), if_neg (by omega), if_pos (by omega)]
  simp [hi]

theorem encodeFields_id : (encodeFields k f).extractLsb' 28 3 = k.code := by
  apply BitVec.eq_of_getLsbD_eq
  intro i hi
  rw [BitVec.getLsbD_extractLsb', encodeFields_getLsbD, if_neg (by omega), if_neg (by omega), if_neg (by omega),
    if_pos (by omega)]
  simp [hi]

theorem encodeFields_irq : (encodeFields k f).getLsbD 31 = f.irq := by rw [encodeFields_getLsbD]; rfl

theorem encodeFields_addr : (encodeFields k f).extractLsb' 32 31 = f.addr := by
  apply BitVec.eq_of_getLsbD_eq
  intro i hi
  rw [BitVec.getLsbD_extractLsb', encodeFields_getLsbD, if_neg (by omega), if_neg (by omega), if_neg (by omega),
    if_neg (by omega), if_neg (by omega), if_pos (by omega)]
  simp [hi]

theorem encodeFields_spr : (encodeFields k f).getLsbD 63 = f.spr := by rw [encodeFields_getLsbD]; rfl

end Fields

/-- A kind's code decodes to the kind where the kind is legal (R52, R63). -/
theorem kindOf_code {k : TagKind} {dir : Direction} (h : k.legalFor dir = true) : kindOf k.code dir = some k := by
  cases k <;> cases dir <;> first | rfl | exact absurd h (by decide)

/-- A 3-bit code always names a kind (R55 (a), R64), which the direction allows and whose code it is. -/
theorem kindOf_eq_some (id : BitVec 3) (dir : Direction) :
    ∃ k, kindOf id dir = some k ∧ k.legalFor dir = true ∧ k.code = id := by
  have h : id.toNat < 8 := id.isLt
  have e : id = BitVec.ofNat 3 id.toNat := by simp
  rw [e]
  generalize id.toNat = n at h
  cases dir <;> interval_cases n <;> exact ⟨_, rfl, rfl, rfl⟩

@[simp] theorem operation_ofTag (k : TagKind) (f : TagFields) : (Instr.ofTag f k).operation = .tag k f := by
  cases k <;> rfl

@[simp] theorem operation_ofAccess (r : RegName) (a : AccessKind) : (Instr.ofAccess r a).operation = .access r a := by
  cases r with
  | chan c r => cases a <;> cases c <;> cases r <;> rfl
  | _ => cases a <;> rfl

@[simp] theorem operation_ofOperation (o : Operation) : (Instr.ofOperation o).operation = o := by
  cases o <;> simp [Instr.ofOperation]

/-- Every instruction is the instruction of its operation. -/
@[simp] theorem ofOperation_operation (i : Instr) : Instr.ofOperation i.operation = i := by cases i <;> rfl

theorem chanReg_mem_all (r : ChanReg) : r ∈ ChanReg.all := by cases r <;> decide

theorem regName_mem_all (r : RegName) : r ∈ RegName.all := by
  cases r with
  | chan c r => cases c <;> cases r <;> decide
  | _ => decide

/-- R118: what the register multiplexer finds stands at the address it was given. -/
theorem addr_of_find {g : Config} {a : Word} {r : RegName} (h : g.find a = some r) : g.regs.addr r = a := by
  have := List.find?_some h
  simp only [Bool.and_eq_true, beq_iff_eq] at this
  exact this.2

/-- An address where no register stands is found to be none, and only such an address (R127). -/
theorem find_eq_none {g : Config} {a : Word} :
    g.find a = none ↔ ∀ r, g.hasReg r = true → g.regs.addr r ≠ a := by
  simp only [Config.find, List.find?_eq_none, Bool.and_eq_true, beq_iff_eq, not_and]
  exact ⟨fun h r => h r (regName_mem_all r), fun h r _ => h r⟩

/-- With all ten channels (R7) every register stands at the host port. -/
theorem hasReg_of_nch {g : Config} (h : 10 ≤ g.nch) (r : RegName) : g.hasReg r = true := by
  cases r with
  | chan c _ => exact decide_eq_true (lt_of_lt_of_le c.num_lt h)
  | sadr8 => exact decide_eq_true (lt_of_lt_of_le Chan.fromSpr.num_lt h)
  | sadr9 => exact decide_eq_true (lt_of_lt_of_le Chan.toSpr.num_lt h)
  | _ => rfl

end Sys2Proof
end

