-- ==== Sys2Proof/Laws/Operands.lean ====
section
/-! SUPPORT. What the operand helpers answer, as numbers: the address arithmetic of R70, the tag's high half (R72), the
stack capacity (R100), the stall limit (R122). -/

namespace Sys2Proof.Machine

/-! ## Addresses -/

theorem addrBits_toNat (w : Word) : (addrBits w).toNat = w.toNat % 2 ^ 31 := by simp [addrBits]

theorem regionBit_eq_decide (w : Word) : regionBit w = decide (2 ^ 31 ≤ w.toNat) := by
  rw [regionBit, show w.getLsbD 31 = w.msb by simp [BitVec.msb, BitVec.getMsbD], BitVec.msb_eq_decide]

theorem regionAddr_toNat (b : Bool) (a : BitVec 31) :
    (regionAddr b a).toNat = (if b then 2 ^ 31 else 0) + a.toNat := by
  have h : (regionAddr b a).toNat = (BitVec.ofBool b).toNat * 2 ^ 31 + a.toNat := by
    unfold regionAddr
    rw [BitVec.toNat_append, ← Nat.shiftLeft_add_eq_or_of_lt a.isLt, Nat.shiftLeft_eq]
  rw [h]
  cases b <;> simp

@[simp] theorem addrBits_regionAddr (b : Bool) (a : BitVec 31) : addrBits (regionAddr b a) = a := by
  apply BitVec.eq_of_toNat_eq
  have h := a.isLt
  rw [addrBits_toNat, regionAddr_toNat]
  split <;> omega

@[simp] theorem regionBit_regionAddr (b : Bool) (a : BitVec 31) : regionBit (regionAddr b a) = b := by
  rw [regionBit, regionAddr, BitVec.getLsbD_append]
  simp

theorem add31_toNat (a : BitVec 31) (n : Nat) : (add31 a n).toNat = (a.toNat + n) % 2 ^ 31 := by simp [add31]

theorem afterTag_toNat (t : Word) : (afterTag t).toNat = (t.toNat % 2 ^ 31 + 16) % 2 ^ 31 := by
  rw [afterTag, add31_toNat, addrBits_toNat]

theorem afterData_toNat (t : Word) (q : BitVec 16) :
    (afterData t q).toNat = (t.toNat % 2 ^ 31 + 16 + 16 * q.toNat) % 2 ^ 31 := by
  rw [afterData, add31_toNat, addrBits_toNat, Nat.add_assoc]

/-- A tag address in the channel's region keeps bit 31 of TADR (R20). -/
theorem sameRegion_getLsbD_31 (t : Word) (a : BitVec 31) : (sameRegion t a).getLsbD 31 = t.getLsbD 31 :=
  regionBit_regionAddr _ _

theorem advance_eq (w : Word) (n : Nat) :
    advance w n = regionAddr (regionBit w) (add31 (addrBits w) (16 * n)) := rfl

/-- R39: a tag address is aligned where it is a multiple of 16. -/
theorem tagAligned_iff (t : Word) : tagAligned t = true ↔ t.toNat % 16 = 0 := by
  simp [tagAligned, ← BitVec.toNat_inj]

/-- What R72 copies to CHCR.TAG is raw[31:16] of the encoded tag. -/
theorem tagHi16_eq (f : TagFields) (k : TagKind) : tagHi16 f k = (encodeFields k f).extractLsb' 16 16 := by
  apply BitVec.eq_of_getLsbD_eq
  intro i hi
  rw [BitVec.getLsbD_extractLsb', encodeFields_getLsbD]
  simp only [tagHi16, BitVec.getLsbD_append]
  interval_cases i <;> simp

/-! ## Reads of registers that may be Undefined -/

theorem UReg.read32_toNat_lt {w : Nat} (r : UReg w) (d : Word) : (r.read32 d).toNat < 2 ^ w := by
  unfold UReg.read32
  split <;> rw [BitVec.toNat_setWidth]
  · exact lt_of_le_of_lt (Nat.mod_le _ _) r.val.isLt
  · rw [BitVec.toNat_setWidth]
    exact lt_of_le_of_lt (Nat.mod_le _ _) (Nat.mod_lt _ (by positivity))

theorem UReg.read32_of_defined {w : Nat} {r : UReg w} (hw : w ≤ 32) (h : r.defined = true) (d : Word) :
    (r.read32 d).toNat = r.val.toNat := by
  have h1 := r.val.isLt
  have h2 : 2 ^ w ≤ 2 ^ 32 := Nat.pow_le_pow_right (by decide) hw
  rw [UReg.read32, if_pos h, BitVec.toNat_setWidth]
  omega

theorem UReg.written_val {w : Nat} {r : UReg w} (h : r.defined = true) : UReg.written r.val = r := by
  cases r
  simp_all [UReg.written]

/-- A truncated write as a number (R131, R132, R135). -/
theorem setWidth_eq_ofNat (v : Word) (w : Nat) : v.setWidth w = BitVec.ofNat w (v.toNat % 2 ^ w) := by
  apply BitVec.eq_of_toNat_eq
  simp

/-! ## Control registers -/

/-- R100: min(ASP, 2), by the bits of the CHCR value. -/
theorem capOf_extract (v : Word) :
    capOf (v.extractLsb' 4 2) = if v.getLsbD 5 then 2 else if v.getLsbD 4 then 1 else 0 := by
  have h5 : v.getLsbD 5 = (v.extractLsb' 4 2).getLsbD 1 := by simp
  have h4 : v.getLsbD 4 = (v.extractLsb' 4 2).getLsbD 0 := by simp
  rw [h5, h4]
  generalize v.extractLsb' 4 2 = x
  revert x
  decide

theorem active_iff (ch : ChannelState) : ch.active = true ↔ ch.phase ≠ .stopped := by simp [ChannelState.active]

/-- R116: a channel is held where DMAE is 0, or PCE is 1 and the channel's own enable is 0. -/
theorem chanOn_eq_false_iff (s : State) (c : Chan) :
    s.chanOn c = false ↔
      s.dCtrl.getLsbD 0 = false ∨ s.dPcr.getLsbD 31 = true ∧ s.dPcr.getLsbD (16 + c.num) = false := by
  simp only [State.chanOn, chanEnabled, dmae]
  cases s.dCtrl.getLsbD 0 <;> cases s.dPcr.getLsbD 31 <;> simp

/-! ## The stall pairing (R120) -/

/-- The stall source is read off D_CTRL bits 5:4 by the table of R120. -/
theorem stallSource_eq_some (d : BitVec 11) (c : Chan) :
    stallSource d = some c ↔ (d.toNat / 2 ^ 4 % 4, c.num) ∈ [(1, 5), (2, 8), (3, 3)] := by
  have h : (sts d).toNat = d.toNat / 2 ^ 4 % 4 := by simp [sts, Nat.shiftRight_eq_div_pow]
  have hlt : d.toNat / 2 ^ 4 % 4 < 4 := Nat.mod_lt _ (by decide)
  unfold stallSource
  rw [h]
  generalize d.toNat / 2 ^ 4 % 4 = n at hlt
  interval_cases n <;> cases c <;> decide

/-- The stall drain is read off D_CTRL bits 7:6 by the table of R120. -/
theorem stallDrain_eq_some (d : BitVec 11) (c : Chan) :
    stallDrain d = some c ↔ (d.toNat / 2 ^ 6 % 4, c.num) ∈ [(1, 1), (2, 2), (3, 6)] := by
  have h : (std d).toNat = d.toNat / 2 ^ 6 % 4 := by simp [std, Nat.shiftRight_eq_div_pow]
  have hlt : d.toNat / 2 ^ 6 % 4 < 4 := Nat.mod_lt _ (by decide)
  unfold stallDrain
  rw [h]
  generalize d.toNat / 2 ^ 6 % 4 = n at hlt
  interval_cases n <;> cases c <;> decide

/-! ## The stall limit (R122) -/

theorem stallLimit_unchecked {ch : ChannelState} (d : UReg 31) (h : ch.stallRole ≠ .check) :
    stallLimit ch d = some 65535 := if_neg h

/-- R122: a checked drain moves `l` quadwords at most, the whole quadwords below the boundary. -/
theorem stallLimit_check {ch : ChannelState} {d : UReg 31} {l : Nat} (h : ch.stallRole = .check) :
    stallLimit ch d = some l ↔
      d.defined = true ∧ ch.madr.defined = true ∧ l = (d.val.toNat - ch.madr.val.toNat % 2 ^ 31) / 16 := by
  simp only [stallLimit, if_pos h, addrBits_toNat]
  by_cases hd : (d.defined && ch.madr.defined) = true
  · rw [if_pos hd]
    rw [Bool.and_eq_true] at hd
    simp only [Option.some.injEq, hd.1, hd.2, true_and]
    split
    · next hle => rw [Nat.sub_eq_zero_of_le hle]; simp [eq_comm]
    · simp [eq_comm]
  · rw [if_neg hd]
    simp only [Bool.and_eq_true] at hd
    simp only [false_iff, reduceCtorEq]
    exact fun hc => hd ⟨hc.1, hc.2.1⟩

theorem stallLimit_eq_none {ch : ChannelState} {d : UReg 31} :
    stallLimit ch d = none ↔ ch.stallRole = .check ∧ (d.defined = false ∨ ch.madr.defined = false) := by
  unfold stallLimit
  cases ch.stallRole <;> cases d.defined <;> cases ch.madr.defined <;> simp

end Sys2Proof.Machine
end

