-- ==== Sys2Proof/Laws/Ops.lean ====
section
/-! SUPPORT. What the shared operations can do, said once: the address stack (R101, R102), the end of a tag's
transition (R72), a channel error (R137), an answer at the host port (R130), the bytes of a fetch (R36, R38). -/

namespace Sys2Proof.Machine

/-! ## The address stack -/

/-- R101: a push onto a stack that is not full. -/
theorem ChannelState.push_eq_some {ch : ChannelState} (a : Word) (h : ch.sp < ch.cap) :
    ch.push a = some
      { ch with
        asr0 := if ch.sp = 0 then UReg.written a else ch.asr0
        asr1 := if ch.sp = 0 then ch.asr1 else UReg.written a
        sp := if ch.sp = 0 then 1 else 2 } := by
  obtain ⟨_, _, _, _, _, _, _, _, sp, cap, _⟩ := ch
  simp only at h
  simp only [ChannelState.push]
  rw [if_neg (by omega)]
  match sp, h with
  | 0, _ => simp
  | 1, _ => simp
  | 2, h => omega

/-- R101: a push onto a full stack overflows. -/
theorem ChannelState.push_eq_none {ch : ChannelState} (a : Word) (h : ch.cap ≤ ch.sp) : ch.push a = none := if_pos h

theorem ChannelState.topSlot_defined {ch : ChannelState} (h0 : ch.sp ≠ 0)
    (h2 : ch.sp = 2 → ch.asr1.defined = true) (h1 : ch.sp = 1 → ch.asr0.defined = true) :
    ch.topSlot.defined = true := by
  unfold ChannelState.topSlot
  split
  · next h => exact h2 h
  · next h => exact h1 (by omega)

/-- R102: a pop from an empty stack underflows. -/
theorem ChannelState.pop_empty {ch : ChannelState} (h : ch.sp = 0) : ch.pop = .underflow := if_pos h

/-- R102: a pop from a stack that is not empty, whose top slot is written. -/
theorem ChannelState.pop_popped {ch : ChannelState} (h : ch.sp ≠ 0) (hd : ch.topSlot.defined = true) :
    ch.pop = .popped ch.topSlot.val { ch with sp := ch.sp - 1 } := by
  rw [ChannelState.pop, if_neg h, if_pos hd]

/-- R33: a pop of an Undefined slot. -/
theorem ChannelState.pop_undefinedSlot {ch : ChannelState} (h : ch.sp ≠ 0) (hd : ch.topSlot.defined = false) :
    ch.pop = .undefinedSlot := by
  rw [ChannelState.pop, if_neg h, hd]; rfl

theorem stack_pred {x : Fin 3} (h : x ≠ 0) : x - 1 = if x = 2 then 1 else 0 := by
  revert x
  decide

/-! ## The end of a tag, a channel error -/

/-- R72, R73: what the end of a tag's transition leaves of its channel. -/
theorem State.finishTag_channel (s : State) (c : Chan) (k : TagKind) (f : TagFields) (ch : ChannelState) :
    (s.finishTag c k f ch).chan c =
      { ch with
        qwc := UReg.written f.qwc
        chcr := { ch.chcr with tag := (encodeFields k f).extractLsb' 16 16 }
        descOpen := true
        irqArmed := f.irq && ch.chcr.tie } := by
  rw [State.finishTag_chan_self, tagHi16_eq]

/-- R137, R108: a channel error sets BEIS and keeps every other bit of D_STAT. -/
theorem State.channelError_stat (s : State) (c : Chan) (r : ErrorReason) (i : Nat) (h : i < 32) :
    (s.channelError c r).dStat.getLsbD i = (decide (i = 15) || s.dStat.getLsbD i) :=
  statRaise_getLsbD s.dStat .beis i h

/-! ## The host port -/

/-- R130: an answer from a register that may be Undefined. -/
theorem State.answerReg_spec {w : Nat} (s : State) (r : UReg w) :
    (∃ v n, s.answerReg r = { s with hostData := v, draws := n }) ∧ (s.answerReg r).hostData.toNat < 2 ^ w ∧
      (w ≤ 32 → r.defined = true →
        (s.answerReg r).hostData.toNat = r.val.toNat ∧ (s.answerReg r).draws = s.draws) := by
  refine ⟨⟨_, _, rfl⟩, UReg.read32_toNat_lt r _, fun hw h => ⟨UReg.read32_of_defined hw h _, ?_⟩⟩
  rw [State.answerReg_draws, if_pos h]

/-! ## The bytes of a fetch -/

/-- The bytes of a fetch, one by one. -/
theorem State.readBytes_eq_map (s : State) (r : Region) (a n : Nat) :
    s.readBytes r a n = (List.range n).map fun j => s.readByte r (a + j) := by
  induction n generalizing a with
  | zero => rfl
  | succ n ih =>
    rw [State.readBytes, ih, List.range_succ_eq_map, List.map_cons, List.map_map]
    congr 1
    apply List.map_congr_left
    intro j _
    simp only [Function.comp_apply]
    congr 1
    omega

end Sys2Proof.Machine
end

