-- ==== Sys2Proof/Laws/Channel.lean ====
section
/-! SUPPORT. When each channel step is enabled (the table of R85) and what it leaves, said once; what a tag's
transition can leave of its channel. -/

namespace Sys2Proof.Machine

theorem State.setChan_setChan (s : State) (c : Chan) (x y : ChannelState) :
    (s.setChan c x).setChan c y = s.setChan c y := by
  simp [State.setChan]

/-! ## When a step is enabled -/

section Ready
variable (s : State) (c : Chan)

/-- R85, R88, R122: a slice of `n` quadwords is enabled. -/
theorem State.stepReady_slice {n : Nat} :
    s.stepReady c (.slice n) = some true ↔
      (s.chan c).phase = .running ∧ (s.chan c).qwc.defined = true ∧ 1 ≤ n ∧ n ≤ (s.chan c).qwc.val.toNat ∧
        ∃ l, stallLimit (s.chan c) s.dStadr = some l ∧ n ≤ l := by
  simp only [State.stepReady, ← BitVec.toNat_inj]
  generalize s.chan c = ch
  split
  · next hp =>
    split
    · next hq =>
      split
      · next hz =>
        simp only [Option.some.injEq, Bool.false_eq_true, false_iff]
        simp only [BitVec.toNat_ofNat] at hz
        omega
      · simp [hp, hq, Option.map_eq_some_iff]
        constructor
        · rintro ⟨l, h1, h2, h3, h4⟩; exact ⟨h2, h3, l, h1, h4⟩
        · rintro ⟨h2, h3, l, h1, h4⟩; exact ⟨l, h1, h2, h3, h4⟩
    · next hq => simp [hq]
  · next hp => simp [hp]

/-- R85, R93: the stall suspension is enabled. -/
theorem State.stepReady_suspend :
    s.stepReady c .suspend = some true ↔
      (s.chan c).phase = .running ∧ (s.chan c).qwc.defined = true ∧ (s.chan c).qwc.val ≠ 0#16 ∧
        stallLimit (s.chan c) s.dStadr = some 0 := by
  simp only [State.stepReady]
  generalize s.chan c = ch
  by_cases hp : ch.phase = .running <;> cases hq : ch.qwc.defined <;> by_cases hz : ch.qwc.val = 0#16 <;>
    simp [hp, hz, Option.map_eq_some_iff]

/-- R85, R94: the resume is enabled. -/
theorem State.stepReady_resume :
    s.stepReady c .resume = some true ↔
      (s.chan c).phase = .suspended ∧ ∃ l, stallLimit (s.chan c) s.dStadr = some l ∧ 1 ≤ l := by
  simp only [State.stepReady]
  by_cases hp : (s.chan c).phase = .suspended <;> simp [hp, Option.map_eq_some_iff]

/-- R85, R89: the descriptor end is enabled. -/
theorem State.stepReady_descEnd :
    s.stepReady c .descEnd = some true ↔
      (s.chan c).phase = .running ∧ (s.chan c).qwc.defined = true ∧ (s.chan c).qwc.val = 0#16 ∧
        (s.chan c).descOpen = true := by
  simp only [State.stepReady]
  generalize s.chan c = ch
  by_cases hp : ch.phase = .running <;> cases hq : ch.qwc.defined <;> by_cases hz : ch.qwc.val = 0#16 <;>
    cases ho : ch.descOpen <;> simp [hp, hz]

/-- R85, R91: the tag step is enabled. -/
theorem State.stepReady_tagStep :
    s.stepReady c .tagStep = some true ↔
      (s.chan c).phase = .running ∧ (s.chan c).mode = .chain ∧ (s.chan c).qwc.defined = true ∧
        (s.chan c).qwc.val = 0#16 ∧ (s.chan c).descOpen = false ∧ (s.chan c).stopReq = false := by
  simp only [State.stepReady]
  generalize s.chan c = ch
  by_cases hp : ch.phase = .running <;> by_cases hm : ch.mode = .chain <;> cases hq : ch.qwc.defined <;>
    by_cases hz : ch.qwc.val = 0#16 <;> cases ho : ch.descOpen <;> cases hr : ch.stopReq <;> simp [hp, hm, hz]

/-- R85, R95: the stop is enabled. -/
theorem State.stepReady_stop :
    s.stepReady c .stop = some true ↔
      (s.chan c).stopReq = true ∧ ((s.chan c).phase = .running ∨ (s.chan c).phase = .suspended) := by
  simp [State.stepReady]

/-- R85, R96: the report is enabled. -/
theorem State.stepReady_report : s.stepReady c .report = some true ↔ ∃ r, (s.chan c).phase = .errored r := by
  simp only [State.stepReady]
  cases (s.chan c).phase <;> simp

/-- R85: no step of a Stopped channel is enabled. -/
theorem State.stepReady_stopped (h : (s.chan c).phase = .stopped) (k : ChanStep) : s.stepReady c k = some false := by
  cases k <;> simp [State.stepReady, h]

/-- Asking whether a step is enabled reads an Undefined register only in QWC of a Running channel, or in MADR or
D_STADR of a checked one (R33, R122). -/
theorem State.stepReady_eq_none {k : ChanStep} (h : s.stepReady c k = none) :
    ((s.chan c).phase = .running ∧ (s.chan c).qwc.defined = false) ∨
      (((s.chan c).phase = .suspended ∨ (s.chan c).phase = .running ∧ (s.chan c).qwc.val ≠ 0#16) ∧
        (s.chan c).stallRole = .check ∧ (s.dStadr.defined = false ∨ (s.chan c).madr.defined = false)) := by
  rw [← stallLimit_eq_none]
  revert h
  cases k <;> simp only [State.stepReady] <;> generalize s.chan c = ch <;> cases hp : ch.phase <;>
    cases hm : ch.mode <;> cases hq : ch.qwc.defined <;> by_cases hz : ch.qwc.val = 0#16 <;>
    simp_all [Option.map_eq_none_iff]

end Ready

/-! ## What a step leaves -/

/-- R22, R88: SADR moves for channels 8 and 9 alone. -/
theorem State.advanceSadr_cases {s t : State} {c : Chan} {n : Nat} (h : s.advanceSadr c n = some t) :
    (c = .fromSpr ∧ s.sadr8.defined = true ∧
      t = { s with sadr8 := UReg.written (s.sadr8.val + BitVec.ofNat 14 (16 * n)) }) ∨
    (c = .toSpr ∧ s.sadr9.defined = true ∧
      t = { s with sadr9 := UReg.written (s.sadr9.val + BitVec.ofNat 14 (16 * n)) }) ∨
    (c ≠ .fromSpr ∧ c ≠ .toSpr ∧ t = s) := by
  cases c <;> simp [State.advanceSadr] at h ⊢ <;> first | exact h.symm | exact ⟨h.1, h.2.symm⟩

theorem State.advanceSadr_eq_none {s : State} {c : Chan} {n : Nat} :
    s.advanceSadr c n = none ↔
      (c = .fromSpr ∧ s.sadr8.defined = false) ∨ (c = .toSpr ∧ s.sadr9.defined = false) := by
  cases c <;> simp [State.advanceSadr]

/-- R121: only a slice of a publishing descriptor writes D_STADR. -/
theorem State.publish_eq (s : State) (role : StallRole) (m : Word) :
    s.publish role m = { s with dStadr := if role = .publish then UReg.written (addrBits m) else s.dStadr } := by
  cases role <;> rfl

/-- R88: everything a slice that answers a next state does. -/
theorem State.slice_next {s t : State} {c : Chan} {n : Nat} (h : s.slice c n = .next t) :
    (s.chan c).madr.defined = true ∧
    t.chan c =
      { s.chan c with
        madr := UReg.written (advance (s.chan c).madr.val n)
        qwc := UReg.written ((s.chan c).qwc.val - BitVec.ofNat 16 n) } ∧
    (∀ d, d ≠ c → t.chan d = s.chan d) ∧
    ∃ x8 x9, t =
      { s with
        chans := t.chans
        sadr8 := x8
        sadr9 := x9
        dStadr := if (s.chan c).stallRole = .publish
          then UReg.written (addrBits (advance (s.chan c).madr.val n)) else s.dStadr } ∧
      (c ≠ .fromSpr → x8 = s.sadr8) ∧ (c ≠ .toSpr → x9 = s.sadr9) := by
  unfold State.slice at h
  simp only at h
  split at h
  · cases h
  · next hm =>
    split at h
    · cases h
    · next s1 hs =>
      cases h
      simp only [State.publish_eq]
      have hcs : s1.chans = s.chans := by
        rcases State.advanceSadr_cases hs with ⟨_, _, rfl⟩ | ⟨_, _, rfl⟩ | ⟨_, _, rfl⟩ <;> rfl
      refine ⟨by simpa using hm, ?_, fun d hd => ?_, ?_⟩
      · exact State.setChan_chan_self _ _ _
      · refine (State.setChan_chan_ne s1 _ hd).trans ?_
        simp only [State.chan, hcs]
      · rcases State.advanceSadr_cases hs with ⟨hc, _, rfl⟩ | ⟨hc, _, rfl⟩ | ⟨h8, h9, rfl⟩
        · exact ⟨_, _, rfl, fun hne => absurd hc hne, fun _ => rfl⟩
        · exact ⟨_, _, rfl, fun _ => rfl, fun hne => absurd hc hne⟩
        · exact ⟨_, _, rfl, fun _ => rfl, fun _ => rfl⟩

/-- R89, R90: what the descriptor end leaves of its channel. -/
theorem State.descEnd_chan_self (s : State) (c : Chan) :
    (s.descEnd c).chan c =
      if (s.chan c).isDone s.cfg then
        { s.chan c with
          descOpen := false, irqArmed := false, phase := .stopped, stallRole := .none, stopReq := false }
      else { s.chan c with descOpen := false, irqArmed := false } := by
  simp only [State.descEnd, State.complete]
  cases (s.chan c).irqArmed <;> cases (s.chan c).isDone s.cfg <;> by_cases hx : s.cfg.cisOnCompletion = true <;>
    simp [hx]

/-- R89, R90: what the descriptor end leaves everywhere else: D_STAT gains at most the channel's bit. -/
theorem State.descEnd_rest (s : State) (c : Chan) :
    (∀ d, d ≠ c → (s.descEnd c).chan d = s.chan d) ∧
    s.descEnd c =
      { s with
        chans := (s.descEnd c).chans
        dStat := if (s.chan c).irqArmed || ((s.chan c).isDone s.cfg && s.cfg.cisOnCompletion)
          then statRaise s.dStat (.cis c) else s.dStat } := by
  have hid : ∀ d : Word, statRaise (statRaise d (.cis c)) (.cis c) = statRaise d (.cis c) := by
    intro d
    simp [statRaise, BitVec.or_assoc]
  refine ⟨fun d hd => ?_, ?_⟩
  · simp only [State.descEnd, State.complete]
    cases (s.chan c).irqArmed <;> cases (s.chan c).isDone s.cfg <;> by_cases hx : s.cfg.cisOnCompletion = true <;>
      simp [hx, State.setChan_chan_ne _ _ hd]
  · simp only [State.descEnd, State.complete]
    cases (s.chan c).irqArmed <;> cases (s.chan c).isDone s.cfg <;> by_cases hx : s.cfg.cisOnCompletion = true <;>
      simp [hx, State.raise, State.setChan, hid]

/-! ## Tags -/

/-- What the meaning of a tag can do: R72's common writes over the kind's own writes, or a channel error of the address
stack with nothing else written (R74). The kind's own writes set MADR, `end_after` and the role, keep every other
field but TADR and the stack, and keep the stack's bounds. -/
theorem exec_tag_next {k : TagKind} {f : TagFields} {s t : State} (h : exec (Instr.ofTag f k) s = .next t) :
    (∃ ch, t = s.finishTag s.mux k f ch ∧ ch.madr.defined = true ∧
      (∃ m ta a0 a1 p e r, ch =
        { s.chan s.mux with
          madr := m, tadr := ta, asr0 := a0, asr1 := a1, sp := p, endAfter := e, stallRole := r }) ∧
      (ch.sp ≠ 0 → (s.chan s.mux).sp = 0 ∨ (s.chan s.mux).asr0.defined = true → ch.asr0.defined = true) ∧
      (ch.sp = 2 → (s.chan s.mux).sp ≠ 2 ∨ (s.chan s.mux).asr1.defined = true → ch.asr1.defined = true) ∧
      ((s.chan s.mux).sp ≤ (s.chan s.mux).cap → ch.sp ≤ ch.cap)) ∨
    (∃ r, t = s.channelError s.mux r ∧ (r = .stackOverflow ∨ r = .stackUnderflow)) := by
  cases k with
  | call =>
    simp only [Instr.ofTag, exec, execCall] at h
    by_cases hs : (s.chan s.mux).sp < (s.chan s.mux).cap
    · rw [ChannelState.push_eq_some _ hs] at h
      cases h
      refine .inl ⟨_, rfl, rfl, ⟨_, _, _, _, _, _, _, rfl⟩, ?_, ?_, ?_⟩ <;> simp only
      · split <;> simp_all [UReg.written]
      · split <;> simp_all [UReg.written]
      · revert hs
        generalize (s.chan s.mux).sp = x
        generalize (s.chan s.mux).cap = y
        revert x y
        decide
    · rw [ChannelState.push_eq_none _ (not_lt.1 hs)] at h
      cases h
      exact .inr ⟨_, rfl, .inl rfl⟩
  | return_ =>
    simp only [Instr.ofTag, exec, execRet] at h
    by_cases h0 : (s.chan s.mux).sp = 0
    · rw [ChannelState.pop_empty h0] at h
      cases h
      exact .inr ⟨_, rfl, .inr rfl⟩
    · cases hd : (s.chan s.mux).topSlot.defined with
      | false => rw [ChannelState.pop_undefinedSlot h0 hd] at h; cases h
      | true =>
        rw [ChannelState.pop_popped h0 hd] at h
        cases h
        refine .inl ⟨_, rfl, rfl, ⟨_, _, _, _, _, _, _, rfl⟩, ?_, ?_, ?_⟩ <;> simp only [stack_pred h0]
        · rintro _ (h | h)
          · exact absurd h h0
          · exact h
        · split <;> simp
        · revert h0
          generalize (s.chan s.mux).sp = x
          generalize (s.chan s.mux).cap = y
          revert x y
          decide
  | _ =>
    simp only [Instr.ofTag, exec, execRefe, execCnts, execCnt, execNext, execRef, execRefs, execEndTag] at h
    cases h
    refine .inl ⟨_, rfl, rfl, ⟨_, _, _, _, _, _, _, rfl⟩, ?_, ?_, ?_⟩ <;> simp_all

/-- The only tag that stops is a Return that pops an Undefined slot (R33, R102). -/
theorem exec_tag_fault {k : TagKind} {f : TagFields} {s : State} {e : Fault}
    (h : exec (Instr.ofTag f k) s = .fault e) :
    k = .return_ ∧ e = .useOfUndefined ∧ (s.chan s.mux).sp ≠ 0 ∧ (s.chan s.mux).topSlot.defined = false := by
  cases k with
  | call =>
    simp only [Instr.ofTag, exec, execCall] at h
    split at h <;> cases h
  | return_ =>
    simp only [Instr.ofTag, exec, execRet] at h
    by_cases h0 : (s.chan s.mux).sp = 0
    · rw [ChannelState.pop_empty h0] at h; cases h
    · cases hd : (s.chan s.mux).topSlot.defined with
      | false => rw [ChannelState.pop_undefinedSlot h0 hd] at h; cases h; exact ⟨rfl, rfl, h0, rfl⟩
      | true => rw [ChannelState.pop_popped h0 hd] at h; cases h
  | _ => cases h

end Sys2Proof.Machine
end

