-- ==== Sys2Proof/Laws/HostPort.lean ====
section
/-! SUPPORT. The meanings of the register accesses, said once for all channels, and everything an access that answers a
next state can do. -/

namespace Sys2Proof.Machine

/-! ## The meanings are the shared operations -/

section Shared
variable (c : Chan) (v : Word) (s : State)

theorem exec_read_chcr : exec (Instr.chanRead c .chcr) s = readChcr c s := by cases c <;> rfl
theorem exec_read_madr : exec (Instr.chanRead c .madr) s = readReg (s.chan c).madr s := by cases c <;> rfl
theorem exec_read_qwc : exec (Instr.chanRead c .qwc) s = readReg (s.chan c).qwc s := by cases c <;> rfl
theorem exec_read_tadr : exec (Instr.chanRead c .tadr) s = readReg (s.chan c).tadr s := by cases c <;> rfl
theorem exec_read_asr0 : exec (Instr.chanRead c .asr0) s = readReg (s.chan c).asr0 s := by cases c <;> rfl
theorem exec_read_asr1 : exec (Instr.chanRead c .asr1) s = readReg (s.chan c).asr1 s := by cases c <;> rfl
theorem exec_write_chcr : exec (Instr.chanWrite v c .chcr) s = writeChcr c v s := by cases c <;> rfl
theorem exec_write_madr : exec (Instr.chanWrite v c .madr) s = writeMadr c v s := by cases c <;> rfl
theorem exec_write_qwc : exec (Instr.chanWrite v c .qwc) s = writeQwc c v s := by cases c <;> rfl
theorem exec_write_tadr : exec (Instr.chanWrite v c .tadr) s = writeTadr c v s := by cases c <;> rfl
theorem exec_write_asr0 : exec (Instr.chanWrite v c .asr0) s = writeAsr0 c v s := by cases c <;> rfl
theorem exec_write_asr1 : exec (Instr.chanWrite v c .asr1) s = writeAsr1 c v s := by cases c <;> rfl

end Shared

/-- R131: a write of a channel register in the Stopped phase. -/
theorem writeStopped_stopped {c : Chan} {s : State} (h : (s.chan c).phase = .stopped)
    (upd : ChannelState → ChannelState) : writeStopped c upd s = .next (s.setChan c (upd (s.chan c))) := by
  simp [writeStopped, ChannelState.active, h]

/-- R131: a write of a channel register in every other phase. -/
theorem writeStopped_active {c : Chan} {s : State} (h : (s.chan c).phase ≠ .stopped)
    (upd : ChannelState → ChannelState) : writeStopped c upd s = .refused .writeWhileActive := by
  simp [writeStopped, ChannelState.active, h]

theorem writeStopped_next {c : Chan} {s t : State} {upd : ChannelState → ChannelState}
    (h : writeStopped c upd s = .next t) :
    (s.chan c).phase = .stopped ∧ t = s.setChan c (upd (s.chan c)) := by
  by_cases hp : (s.chan c).phase = .stopped
  · rw [writeStopped_stopped hp] at h
    cases h
    exact ⟨hp, rfl⟩
  · rw [writeStopped_active hp] at h
    cases h

theorem anyActive_iff (s : State) : s.anyActive = true ↔ ∃ c, (s.chan c).phase ≠ .stopped := by
  simp only [State.anyActive, List.any_eq_true, active_iff]
  exact ⟨fun ⟨c, _, h⟩ => ⟨c, h⟩, fun ⟨c, h⟩ => ⟨c, chan_mem_all c, h⟩⟩

/-- R87: what a start that answers a next state has checked and writes. -/
theorem State.startChannel_next {s t : State} {c : Chan} (h : s.startChannel c = .next t) :
    (s.chan c).qwc.defined = true ∧
    (((s.chan c).madr.defined = true ∧ t = s.setChan c
      { s.chan c with
        stopReq := false, irqArmed := false, mode := .normal, descOpen := true, endAfter := true
        stallRole := normalRole s.dCtrl c, phase := .running }) ∨
    (((s.chan c).qwc.val ≠ 0#16 → (s.chan c).madr.defined = true) ∧ t = s.setChan c
      { s.chan c with
        stopReq := false, irqArmed := false, mode := .chain, sp := 0, cap := capOf (s.chan c).chcr.asp
        descOpen := (s.chan c).qwc.val != 0#16, endAfter := false, stallRole := .none, phase := .running })) := by
  unfold State.startChannel at h
  simp only at h
  split at h
  · cases h
  · split at h
    · cases h
    · split at h
      · cases h
      · split at h
        · cases h
        · next hq =>
          split at h
          · cases h
          · next hm =>
            simp only [Bool.not_eq_eq_eq_not, Bool.not_true, not_and, Bool.not_eq_false] at hq hm
            split at h
            · next hz => cases h; exact ⟨hq, .inl ⟨hm (.inl hz), rfl⟩⟩
            · cases h; exact ⟨hq, .inr ⟨fun hz => hm (.inr hz), rfl⟩⟩

/-- R129: what a write of CHCR that answers a next state can do. -/
theorem writeChcr_next {c : Chan} {v : Word} {s t : State} (h : writeChcr c v s = .next t) :
    ((s.chan c).phase = .stopped ∧ v.getLsbD 8 = false ∧
      t = s.setChan c { s.chan c with chcr := (s.chan c).chcr.write v }) ∨
    ((s.chan c).phase = .stopped ∧ v.getLsbD 8 = true ∧
      (s.setChan c { s.chan c with chcr := (s.chan c).chcr.write v }).startChannel c = .next t) ∨
    ((∃ r, (s.chan c).phase = .errored r) ∧ t = s) ∨
    (((s.chan c).phase = .running ∨ (s.chan c).phase = .suspended) ∧
      t = s.setChan c { s.chan c with stopReq := true }) := by
  unfold writeChcr at h
  simp only at h
  split at h
  · next hp =>
    split at h
    · next hv => exact .inr (.inl ⟨hp, hv, h⟩)
    · next hv => cases h; exact .inl ⟨hp, by simpa using hv, rfl⟩
  · next r hp => cases h; exact .inr (.inr (.inl ⟨⟨r, hp⟩, rfl⟩))
  · next hp =>
    split at h
    · cases h
    · cases h; exact .inr (.inr (.inr ⟨.inl hp, rfl⟩))
  · next hp =>
    split at h
    · cases h
    · cases h; exact .inr (.inr (.inr ⟨.inr hp, rfl⟩))

/-- What a register access does in a next state: an answer at the host port, a write of one channel, or a write of one
global register. -/
inductive AccessDone (s t : State) : Prop
  | answered (v : Word) (n : Nat) (h : t = { s with hostData := v, draws := n })
  | channel (c : Chan) (x : ChannelState) (h : t = s.setChan c x)
      (was : (s.chan c).phase = .stopped ∧ (∃ r m q a b d, x =
          { s.chan c with chcr := r, madr := m, qwc := q, tadr := a, asr0 := b, asr1 := d } ∧
          ((s.chan c).asr0.defined = true → b.defined = true) ∧ ((s.chan c).asr1.defined = true → d.defined = true)) ∨
        (s.chan c).phase = .stopped ∧ (s.setChan c { s.chan c with chcr := x.chcr }).startChannel c = .next t ∨
        ((s.chan c).phase = .running ∨ (s.chan c).phase = .suspended) ∧ x = { s.chan c with stopReq := true })
  | same (h : t = s)
  | sadr (a b : UReg 14) (h : t = { s with sadr8 := a, sadr9 := b })
  | ctrl (v : BitVec 11) (h : t = { s with dCtrl := v })
  | stat (v : Word) (h : t = { s with dStat := statWrite s.dStat v })
  | pcr (v : Word) (h : t = { s with dPcr := v &&& pcrBits })
  | stadr (v : BitVec 31) (h : t = { s with dStadr := UReg.written v })

theorem AccessDone.ofChcr {c : Chan} {v : Word} {s t : State} (h : writeChcr c v s = .next t) : AccessDone s t := by
  rcases writeChcr_next h with ⟨hp, _, rfl⟩ | ⟨hp, _, hs⟩ | ⟨_, rfl⟩ | ⟨hp, rfl⟩
  · exact .channel c _ rfl (.inl ⟨hp, _, _, _, _, _, _, rfl, id, id⟩)
  · rcases (State.startChannel_next hs).2 with ⟨_, ht⟩ | ⟨_, ht⟩ <;>
      rw [State.setChan_setChan] at ht <;>
      refine .channel c _ ht (.inr (.inl ⟨hp, ?_⟩)) <;> simpa only [State.setChan_chan_self] using hs
  · exact .same rfl
  · exact .channel c _ rfl (.inr (.inr ⟨hp, rfl⟩))

/-- Everything a register access that answers a next state can do (R128 to R135). -/
theorem exec_access_next {r : RegName} {a : AccessKind} {s t : State} (h : exec (Instr.ofAccess r a) s = .next t) :
    AccessDone s t := by
  have hread : ∀ {w : Nat} (g : UReg w), readReg g s = .next t → AccessDone s t := by
    intro w g hg
    cases hg
    exact .answered _ _ rfl
  have hw : ∀ {c : Chan} {upd : ChannelState → ChannelState} (r : Chcr) (m : UReg 32) (q : UReg 16) (x y z : UReg 32),
      upd (s.chan c) = { s.chan c with chcr := r, madr := m, qwc := q, tadr := x, asr0 := y, asr1 := z } →
      ((s.chan c).asr0.defined = true → y.defined = true) → ((s.chan c).asr1.defined = true → z.defined = true) →
      writeStopped c upd s = .next t → AccessDone s t := by
    intro c upd r m q x y z he h0 h1 hu
    obtain ⟨hp, rfl⟩ := writeStopped_next hu
    exact .channel c _ rfl (.inl ⟨hp, r, m, q, x, y, z, he, h0, h1⟩)
  cases r with
  | chan c g =>
    cases a with
    | read =>
      cases g <;> simp only [Instr.ofAccess, exec_read_chcr, exec_read_madr, exec_read_qwc, exec_read_tadr,
        exec_read_asr0, exec_read_asr1] at h
      case chcr => cases h; exact .answered _ _ rfl
      all_goals exact hread _ h
    | write v =>
      cases g <;> simp only [Instr.ofAccess, exec_write_chcr, exec_write_madr, exec_write_qwc, exec_write_tadr,
        exec_write_asr0, exec_write_asr1] at h
      case chcr => exact .ofChcr h
      all_goals exact hw _ _ _ _ _ _ rfl (by simp [UReg.written]) (by simp [UReg.written]) h
  | sadr8 =>
    cases a with
    | read => exact hread _ h
    | write v =>
      simp only [Instr.ofAccess, exec, execWriteD8Sadr] at h
      split at h
      · cases h
      · cases h; exact .sadr _ _ rfl
  | sadr9 =>
    cases a with
    | read => exact hread _ h
    | write v =>
      simp only [Instr.ofAccess, exec, execWriteD9Sadr] at h
      split at h
      · cases h
      · cases h; exact .sadr _ _ rfl
  | dCtrl =>
    cases a with
    | read => cases h; exact .answered _ _ rfl
    | write v =>
      simp only [Instr.ofAccess, exec, execWriteDCtrl] at h
      split at h
      · cases h
      · cases h; exact .ctrl _ rfl
  | dStat =>
    cases a with
    | read => cases h; exact .answered _ _ rfl
    | write v => cases h; exact .stat v rfl
  | dPcr =>
    cases a with
    | read => cases h; exact .answered _ _ rfl
    | write v => cases h; exact .pcr v rfl
  | dStadr =>
    cases a with
    | read => exact hread _ h
    | write v => cases h; exact .stadr _ rfl
  | dSqwc => cases h
  | dRbsr => cases h
  | dRbor => cases h
  | dEnabler => cases h
  | dEnablew => cases h

/-- A register access that changes D_STAT is a write of D_STAT (R34, R109). -/
theorem exec_access_dStat {r : RegName} {a : AccessKind} {s t : State} (h : exec (Instr.ofAccess r a) s = .next t)
    (hd : t.dStat ≠ s.dStat) : r = .dStat ∧ ∃ v, a = .write v ∧ t.dStat = statWrite s.dStat v := by
  by_cases hr : r = .dStat
  · subst hr
    cases a with
    | read => cases h; exact absurd rfl hd
    | write v => cases h; exact ⟨rfl, v, rfl, rfl⟩
  · exfalso
    apply hd
    cases r with
    | chan c g =>
      cases a with
      | read =>
        cases g <;> simp only [Instr.ofAccess, exec_read_chcr, exec_read_madr, exec_read_qwc, exec_read_tadr,
          exec_read_asr0, exec_read_asr1] at h <;> cases h <;> rfl
      | write v =>
        cases g <;> simp only [Instr.ofAccess, exec_write_chcr, exec_write_madr, exec_write_qwc, exec_write_tadr,
          exec_write_asr0, exec_write_asr1] at h
        case chcr =>
          rcases writeChcr_next h with ⟨_, _, rfl⟩ | ⟨_, _, hs⟩ | ⟨_, rfl⟩ | ⟨_, rfl⟩
          · rfl
          · rcases (State.startChannel_next hs).2 with ⟨_, rfl⟩ | ⟨_, rfl⟩ <;> rfl
          · rfl
          · rfl
        all_goals obtain ⟨_, rfl⟩ := writeStopped_next h; rfl
    | dStat => exact absurd rfl hr
    | sadr8 =>
      cases a with
      | read => cases h; rfl
      | write v => simp only [Instr.ofAccess, exec, execWriteD8Sadr] at h; split at h <;> cases h; rfl
    | sadr9 =>
      cases a with
      | read => cases h; rfl
      | write v => simp only [Instr.ofAccess, exec, execWriteD9Sadr] at h; split at h <;> cases h; rfl
    | dCtrl =>
      cases a with
      | read => cases h; rfl
      | write v => simp only [Instr.ofAccess, exec, execWriteDCtrl] at h; split at h <;> cases h; rfl
    | dPcr => cases a <;> cases h <;> rfl
    | dStadr => cases a <;> cases h <;> rfl
    | dSqwc => cases h
    | dRbsr => cases h
    | dRbor => cases h
    | dEnabler => cases h
    | dEnablew => cases h

end Sys2Proof.Machine
end

