-- ==== Sys2Proof/Laws/Controller.lean ====
section
/-! SUPPORT. One step, inverted once: which turn it takes, what a channel's turn and a host's turn can do, and the tag
step's outcomes. -/

namespace Sys2Proof.Machine

/-! ## Which turn a step takes -/

theorem step_scheduled {s : State} {t : Turn} {ts : List Turn} (hr : s.refused = false) (hf : s.faulted = false)
    (hs : s.schedule = t :: ts) : step s = State.turn { s with schedule := ts } t := by
  simp [step, hr, hf, hs]

/-- A turn that the multiplexer chooses is one of the enabled channel steps (R117). -/
theorem freeTurn_eq_some {s : State} {t : Turn} (h : s.freeTurn = some t) :
    ∃ c k, t = .chan c k ∧ s.chanOn c = true ∧ s.stepReady c k ≠ some false := by
  simp only [State.freeTurn] at h
  split at h
  · cases h
  · obtain ⟨c, _, hc⟩ := List.mem_flatMap.1 (List.mem_of_getElem? h)
    simp only [State.openSteps] at hc
    split at hc
    · next ho =>
      obtain ⟨k, hk, rfl⟩ := List.mem_map.1 hc
      exact ⟨c, k, rfl, ho, by simpa using (List.mem_filter.1 hk).2⟩
    · simp at hc

/-- The multiplexer has nothing to choose only where no channel step is enabled. -/
theorem freeTurn_eq_none {s : State} (h : s.freeTurn = none) (c : Chan) : s.openSteps c = [] := by
  simp only [State.freeTurn] at h
  split at h
  · next he => exact List.flatMap_eq_nil_iff.1 (List.isEmpty_iff.1 he) c (chan_mem_all c)
  · next he =>
    exfalso
    have hpos : 0 < (Chan.all.flatMap s.openSteps).length := by
      rw [List.length_pos_iff]
      exact fun e => he (List.isEmpty_iff.2 e)
    rw [List.getElem?_eq_getElem (Nat.mod_lt _ hpos)] at h
    cases h

/-- A step that answers a next state: no mark is set, and it took the turn of the schedule, or a channel step that the
multiplexer chose, or none was enabled. -/
theorem step_next {s t : State} (h : step s = .next t) :
    s.refused = false ∧ s.faulted = false ∧
    ((∃ u ts, s.schedule = u :: ts ∧ State.turn { s with schedule := ts } u = .next t) ∨
      (s.schedule = [] ∧ ∃ c k, s.freeTurn = some (.chan c k) ∧
        State.chanTurn { s with draws := s.draws + 1 } c k = .next t) ∨
      (s.schedule = [] ∧ s.freeTurn = none ∧ t = s)) := by
  unfold step at h
  cases hr : s.refused with
  | true => simp [hr] at h
  | false =>
    cases hf : s.faulted with
    | true => simp [hr, hf] at h
    | false =>
      simp only [hr, hf, Bool.false_eq_true, if_false] at h
      refine ⟨rfl, rfl, ?_⟩
      split at h
      · next u ts hs => exact .inl ⟨u, ts, hs, by simpa [hr, hf] using h⟩
      · next hs =>
        split at h
        · next u hu =>
          obtain ⟨c, k, rfl, _, _⟩ := freeTurn_eq_some hu
          exact .inr (.inl ⟨hs, c, k, hu, by simpa [hr, hf, State.turn] using h⟩)
        · next hu => cases h; exact .inr (.inr ⟨hs, hu, rfl⟩)

/-! ## A channel's turn -/

/-- R85, R116: a turn of a channel passes, or takes an enabled step. -/
theorem chanTurn_next {s t : State} {c : Chan} {k : ChanStep} (h : s.chanTurn c k = .next t) :
    t = s ∨ (s.chanOn c = true ∧ s.stepReady c k = some true ∧ s.takeStep c k = .next t) := by
  unfold State.chanTurn at h
  split at h
  · next ho =>
    split at h
    · cases h
    · cases h; exact .inl rfl
    · next hr => exact .inr ⟨ho, hr, h⟩
  · cases h; exact .inl rfl

theorem decodeRaw_ok {raw : BitVec 128} {dir : Direction} {tte : Bool} {i : Instr}
    (h : decodeRaw raw dir tte = .ok i) : ∃ k f, i = Instr.ofTag f k := by
  unfold decodeRaw at h
  split at h
  · cases h; exact ⟨_, _, rfl⟩
  · cases h

/-- R91, R144: everything a tag step that answers a next state can do. -/
theorem tagStep_next {s t : State} {c : Chan} (h : s.tagStep c = .next t) :
    t = s.channelError c .misalignedAddress ∨
    (∃ k f, exec (Instr.ofTag f k) (s.fetched c) = .next t) ∨
    (∃ m, t = (s.fetched c).channelError c (.malformedTag m)) := by
  unfold State.tagStep at h
  simp only at h
  split at h
  · cases h
  · split at h
    · cases h; exact .inl rfl
    · split at h
      · cases h
      · split at h
        · next i hi =>
          obtain ⟨k, f, rfl⟩ := decodeRaw_ok hi
          exact .inr (.inl ⟨k, f, h⟩)
        · next m _ => cases h; exact .inr (.inr ⟨m, rfl⟩)

/-! ## A host's turn -/

/-- R118, R126: a host access that answers a next state is the access to the register at its address. -/
theorem hostTurn_next {s t : State} {a : HostAccess} (h : s.hostTurn a = .next t) :
    a.width = .w32 ∧ ∃ r, s.cfg.regs.addr r = a.addr ∧ exec (Instr.ofAccess r a.kind) s = .next t := by
  unfold State.hostTurn decodeAccess at h
  split at h
  · next i hi =>
    split at hi
    · next hf =>
      split at hi
      · next r hr => cases hi; exact ⟨hf.1, r, addr_of_find hr, h⟩
      · cases hi
    · cases hi
  · cases h
  · cases h

theorem accessAligned_iff (a : Word) : a.extractLsb' 0 2 = 0#2 ↔ a.toNat % 4 = 0 := by
  rw [← BitVec.toNat_inj]
  simp

end Sys2Proof.Machine
end

