-- ==== Sys2Proof/Laws/PerInstr.lean ====
section
/-! SUPPORT. The family `EncodesRow`: what each instruction is encoded as carries the fixed bits of its row of
spec/opcode_table.json, written out here from the table. -/

namespace Sys2Proof.Laws.EncodesRow

/-- The value of the row's fixed bits: bits 30:28 of a tag, bits 31:0 of the address of an access. -/
def fixedBits : Instr → Nat
  | .refe _ => 0
  | .cnts _ => 0
  | .cnt _ => 1
  | .next _ => 2
  | .ref _ => 3
  | .refs _ => 4
  | .call _ => 5
  | .ret _ => 6
  | .endTag _ => 7
  | .readD0Chcr => 0x10008000
  | .writeD0Chcr _ => 0x10008000
  | .readD0Madr => 0x10008010
  | .writeD0Madr _ => 0x10008010
  | .readD0Qwc => 0x10008020
  | .writeD0Qwc _ => 0x10008020
  | .readD0Tadr => 0x10008030
  | .writeD0Tadr _ => 0x10008030
  | .readD0Asr0 => 0x10008040
  | .writeD0Asr0 _ => 0x10008040
  | .readD0Asr1 => 0x10008050
  | .writeD0Asr1 _ => 0x10008050
  | .readD1Chcr => 0x10009000
  | .writeD1Chcr _ => 0x10009000
  | .readD1Madr => 0x10009010
  | .writeD1Madr _ => 0x10009010
  | .readD1Qwc => 0x10009020
  | .writeD1Qwc _ => 0x10009020
  | .readD1Tadr => 0x10009030
  | .writeD1Tadr _ => 0x10009030
  | .readD1Asr0 => 0x10009040
  | .writeD1Asr0 _ => 0x10009040
  | .readD1Asr1 => 0x10009050
  | .writeD1Asr1 _ => 0x10009050
  | .readD2Chcr => 0x1000A000
  | .writeD2Chcr _ => 0x1000A000
  | .readD2Madr => 0x1000A010
  | .writeD2Madr _ => 0x1000A010
  | .readD2Qwc => 0x1000A020
  | .writeD2Qwc _ => 0x1000A020
  | .readD2Tadr => 0x1000A030
  | .writeD2Tadr _ => 0x1000A030
  | .readD2Asr0 => 0x1000A040
  | .writeD2Asr0 _ => 0x1000A040
  | .readD2Asr1 => 0x1000A050
  | .writeD2Asr1 _ => 0x1000A050
  | .readD3Chcr => 0x1000B000
  | .writeD3Chcr _ => 0x1000B000
  | .readD3Madr => 0x1000B010
  | .writeD3Madr _ => 0x1000B010
  | .readD3Qwc => 0x1000B020
  | .writeD3Qwc _ => 0x1000B020
  | .readD3Tadr => 0x1000B030
  | .writeD3Tadr _ => 0x1000B030
  | .readD3Asr0 => 0x1000B040
  | .writeD3Asr0 _ => 0x1000B040
  | .readD3Asr1 => 0x1000B050
  | .writeD3Asr1 _ => 0x1000B050
  | .readD4Chcr => 0x1000B400
  | .writeD4Chcr _ => 0x1000B400
  | .readD4Madr => 0x1000B410
  | .writeD4Madr _ => 0x1000B410
  | .readD4Qwc => 0x1000B420
  | .writeD4Qwc _ => 0x1000B420
  | .readD4Tadr => 0x1000B430
  | .writeD4Tadr _ => 0x1000B430
  | .readD4Asr0 => 0x1000B440
  | .writeD4Asr0 _ => 0x1000B440
  | .readD4Asr1 => 0x1000B450
  | .writeD4Asr1 _ => 0x1000B450
  | .readD5Chcr => 0x1000C000
  | .writeD5Chcr _ => 0x1000C000
  | .readD5Madr => 0x1000C010
  | .writeD5Madr _ => 0x1000C010
  | .readD5Qwc => 0x1000C020
  | .writeD5Qwc _ => 0x1000C020
  | .readD5Tadr => 0x1000C030
  | .writeD5Tadr _ => 0x1000C030
  | .readD5Asr0 => 0x1000C040
  | .writeD5Asr0 _ => 0x1000C040
  | .readD5Asr1 => 0x1000C050
  | .writeD5Asr1 _ => 0x1000C050
  | .readD6Chcr => 0x1000C400
  | .writeD6Chcr _ => 0x1000C400
  | .readD6Madr => 0x1000C410
  | .writeD6Madr _ => 0x1000C410
  | .readD6Qwc => 0x1000C420
  | .writeD6Qwc _ => 0x1000C420
  | .readD6Tadr => 0x1000C430
  | .writeD6Tadr _ => 0x1000C430
  | .readD6Asr0 => 0x1000C440
  | .writeD6Asr0 _ => 0x1000C440
  | .readD6Asr1 => 0x1000C450
  | .writeD6Asr1 _ => 0x1000C450
  | .readD7Chcr => 0x1000C800
  | .writeD7Chcr _ => 0x1000C800
  | .readD7Madr => 0x1000C810
  | .writeD7Madr _ => 0x1000C810
  | .readD7Qwc => 0x1000C820
  | .writeD7Qwc _ => 0x1000C820
  | .readD7Tadr => 0x1000C830
  | .writeD7Tadr _ => 0x1000C830
  | .readD7Asr0 => 0x1000C840
  | .writeD7Asr0 _ => 0x1000C840
  | .readD7Asr1 => 0x1000C850
  | .writeD7Asr1 _ => 0x1000C850
  | .readD8Chcr => 0x1000D000
  | .writeD8Chcr _ => 0x1000D000
  | .readD8Madr => 0x1000D010
  | .writeD8Madr _ => 0x1000D010
  | .readD8Qwc => 0x1000D020
  | .writeD8Qwc _ => 0x1000D020
  | .readD8Tadr => 0x1000D030
  | .writeD8Tadr _ => 0x1000D030
  | .readD8Asr0 => 0x1000D040
  | .writeD8Asr0 _ => 0x1000D040
  | .readD8Asr1 => 0x1000D050
  | .writeD8Asr1 _ => 0x1000D050
  | .readD8Sadr => 0x1000D080
  | .writeD8Sadr _ => 0x1000D080
  | .readD9Chcr => 0x1000D400
  | .writeD9Chcr _ => 0x1000D400
  | .readD9Madr => 0x1000D410
  | .writeD9Madr _ => 0x1000D410
  | .readD9Qwc => 0x1000D420
  | .writeD9Qwc _ => 0x1000D420
  | .readD9Tadr => 0x1000D430
  | .writeD9Tadr _ => 0x1000D430
  | .readD9Asr0 => 0x1000D440
  | .writeD9Asr0 _ => 0x1000D440
  | .readD9Asr1 => 0x1000D450
  | .writeD9Asr1 _ => 0x1000D450
  | .readD9Sadr => 0x1000D480
  | .writeD9Sadr _ => 0x1000D480
  | .readDCtrl => 0x1000E000
  | .writeDCtrl _ => 0x1000E000
  | .readDStat => 0x1000E010
  | .writeDStat _ => 0x1000E010
  | .readDPcr => 0x1000E020
  | .writeDPcr _ => 0x1000E020
  | .readDStadr => 0x1000E060
  | .writeDStadr _ => 0x1000E060
  | .accessDSqwcRefused _ => 0x1000E030
  | .accessDRbsrRefused _ => 0x1000E040
  | .accessDRborRefused _ => 0x1000E050
  | .accessDEnablerRefused _ => 0x1000F520
  | .accessDEnablewRefused _ => 0x1000F590

/-- The encoding carries the row's fixed bits. -/
def Statement (i : Instr) : Prop :=
  match encode RegBase.ps2 i with
  | .tag bs => bs.length = 16 ∧ (rawOfBytes bs).extractLsb' 28 3 = BitVec.ofNat 3 (fixedBits i)
  | .access a => a.width = .w32 ∧ a.addr = BitVec.ofNat 32 (fixedBits i)

/-- Bits 30:28 of a tag's bytes are its kind's code (R50, R52). -/
theorem tag_id (k : TagKind) (f : TagFields) :
    (bytesOfRaw (encodeFields k f)).length = 16 ∧
      (rawOfBytes (bytesOfRaw (encodeFields k f))).extractLsb' 28 3 = k.code :=
  ⟨bytesOfRaw_length _, by rw [rawOfBytes_bytesOfRaw, encodeFields_id]⟩

theorem refe (f : TagFields) : Statement (.refe f) := tag_id _ f
theorem cnts (f : TagFields) : Statement (.cnts f) := tag_id _ f
theorem cnt (f : TagFields) : Statement (.cnt f) := tag_id _ f
theorem next (f : TagFields) : Statement (.next f) := tag_id _ f
theorem ref (f : TagFields) : Statement (.ref f) := tag_id _ f
theorem refs (f : TagFields) : Statement (.refs f) := tag_id _ f
theorem call (f : TagFields) : Statement (.call f) := tag_id _ f
theorem ret (f : TagFields) : Statement (.ret f) := tag_id _ f
theorem endTag (f : TagFields) : Statement (.endTag f) := tag_id _ f
theorem readD0Chcr : Statement .readD0Chcr := ⟨rfl, rfl⟩
theorem writeD0Chcr (v : Word) : Statement (.writeD0Chcr v) := ⟨rfl, rfl⟩
theorem readD0Madr : Statement .readD0Madr := ⟨rfl, rfl⟩
theorem writeD0Madr (v : Word) : Statement (.writeD0Madr v) := ⟨rfl, rfl⟩
theorem readD0Qwc : Statement .readD0Qwc := ⟨rfl, rfl⟩
theorem writeD0Qwc (v : Word) : Statement (.writeD0Qwc v) := ⟨rfl, rfl⟩
theorem readD0Tadr : Statement .readD0Tadr := ⟨rfl, rfl⟩
theorem writeD0Tadr (v : Word) : Statement (.writeD0Tadr v) := ⟨rfl, rfl⟩
theorem readD0Asr0 : Statement .readD0Asr0 := ⟨rfl, rfl⟩
theorem writeD0Asr0 (v : Word) : Statement (.writeD0Asr0 v) := ⟨rfl, rfl⟩
theorem readD0Asr1 : Statement .readD0Asr1 := ⟨rfl, rfl⟩
theorem writeD0Asr1 (v : Word) : Statement (.writeD0Asr1 v) := ⟨rfl, rfl⟩
theorem readD1Chcr : Statement .readD1Chcr := ⟨rfl, rfl⟩
theorem writeD1Chcr (v : Word) : Statement (.writeD1Chcr v) := ⟨rfl, rfl⟩
theorem readD1Madr : Statement .readD1Madr := ⟨rfl, rfl⟩
theorem writeD1Madr (v : Word) : Statement (.writeD1Madr v) := ⟨rfl, rfl⟩
theorem readD1Qwc : Statement .readD1Qwc := ⟨rfl, rfl⟩
theorem writeD1Qwc (v : Word) : Statement (.writeD1Qwc v) := ⟨rfl, rfl⟩
theorem readD1Tadr : Statement .readD1Tadr := ⟨rfl, rfl⟩
theorem writeD1Tadr (v : Word) : Statement (.writeD1Tadr v) := ⟨rfl, rfl⟩
theorem readD1Asr0 : Statement .readD1Asr0 := ⟨rfl, rfl⟩
theorem writeD1Asr0 (v : Word) : Statement (.writeD1Asr0 v) := ⟨rfl, rfl⟩
theorem readD1Asr1 : Statement .readD1Asr1 := ⟨rfl, rfl⟩
theorem writeD1Asr1 (v : Word) : Statement (.writeD1Asr1 v) := ⟨rfl, rfl⟩
theorem readD2Chcr : Statement .readD2Chcr := ⟨rfl, rfl⟩
theorem writeD2Chcr (v : Word) : Statement (.writeD2Chcr v) := ⟨rfl, rfl⟩
theorem readD2Madr : Statement .readD2Madr := ⟨rfl, rfl⟩
theorem writeD2Madr (v : Word) : Statement (.writeD2Madr v) := ⟨rfl, rfl⟩
theorem readD2Qwc : Statement .readD2Qwc := ⟨rfl, rfl⟩
theorem writeD2Qwc (v : Word) : Statement (.writeD2Qwc v) := ⟨rfl, rfl⟩
theorem readD2Tadr : Statement .readD2Tadr := ⟨rfl, rfl⟩
theorem writeD2Tadr (v : Word) : Statement (.writeD2Tadr v) := ⟨rfl, rfl⟩
theorem readD2Asr0 : Statement .readD2Asr0 := ⟨rfl, rfl⟩
theorem writeD2Asr0 (v : Word) : Statement (.writeD2Asr0 v) := ⟨rfl, rfl⟩
theorem readD2Asr1 : Statement .readD2Asr1 := ⟨rfl, rfl⟩
theorem writeD2Asr1 (v : Word) : Statement (.writeD2Asr1 v) := ⟨rfl, rfl⟩
theorem readD3Chcr : Statement .readD3Chcr := ⟨rfl, rfl⟩
theorem writeD3Chcr (v : Word) : Statement (.writeD3Chcr v) := ⟨rfl, rfl⟩
theorem readD3Madr : Statement .readD3Madr := ⟨rfl, rfl⟩
theorem writeD3Madr (v : Word) : Statement (.writeD3Madr v) := ⟨rfl, rfl⟩
theorem readD3Qwc : Statement .readD3Qwc := ⟨rfl, rfl⟩
theorem writeD3Qwc (v : Word) : Statement (.writeD3Qwc v) := ⟨rfl, rfl⟩
theorem readD3Tadr : Statement .readD3Tadr := ⟨rfl, rfl⟩
theorem writeD3Tadr (v : Word) : Statement (.writeD3Tadr v) := ⟨rfl, rfl⟩
theorem readD3Asr0 : Statement .readD3Asr0 := ⟨rfl, rfl⟩
theorem writeD3Asr0 (v : Word) : Statement (.writeD3Asr0 v) := ⟨rfl, rfl⟩
theorem readD3Asr1 : Statement .readD3Asr1 := ⟨rfl, rfl⟩
theorem writeD3Asr1 (v : Word) : Statement (.writeD3Asr1 v) := ⟨rfl, rfl⟩
theorem readD4Chcr : Statement .readD4Chcr := ⟨rfl, rfl⟩
theorem writeD4Chcr (v : Word) : Statement (.writeD4Chcr v) := ⟨rfl, rfl⟩
theorem readD4Madr : Statement .readD4Madr := ⟨rfl, rfl⟩
theorem writeD4Madr (v : Word) : Statement (.writeD4Madr v) := ⟨rfl, rfl⟩
theorem readD4Qwc : Statement .readD4Qwc := ⟨rfl, rfl⟩
theorem writeD4Qwc (v : Word) : Statement (.writeD4Qwc v) := ⟨rfl, rfl⟩
theorem readD4Tadr : Statement .readD4Tadr := ⟨rfl, rfl⟩
theorem writeD4Tadr (v : Word) : Statement (.writeD4Tadr v) := ⟨rfl, rfl⟩
theorem readD4Asr0 : Statement .readD4Asr0 := ⟨rfl, rfl⟩
theorem writeD4Asr0 (v : Word) : Statement (.writeD4Asr0 v) := ⟨rfl, rfl⟩
theorem readD4Asr1 : Statement .readD4Asr1 := ⟨rfl, rfl⟩
theorem writeD4Asr1 (v : Word) : Statement (.writeD4Asr1 v) := ⟨rfl, rfl⟩
theorem readD5Chcr : Statement .readD5Chcr := ⟨rfl, rfl⟩
theorem writeD5Chcr (v : Word) : Statement (.writeD5Chcr v) := ⟨rfl, rfl⟩
theorem readD5Madr : Statement .readD5Madr := ⟨rfl, rfl⟩
theorem writeD5Madr (v : Word) : Statement (.writeD5Madr v) := ⟨rfl, rfl⟩
theorem readD5Qwc : Statement .readD5Qwc := ⟨rfl, rfl⟩
theorem writeD5Qwc (v : Word) : Statement (.writeD5Qwc v) := ⟨rfl, rfl⟩
theorem readD5Tadr : Statement .readD5Tadr := ⟨rfl, rfl⟩
theorem writeD5Tadr (v : Word) : Statement (.writeD5Tadr v) := ⟨rfl, rfl⟩
theorem readD5Asr0 : Statement .readD5Asr0 := ⟨rfl, rfl⟩
theorem writeD5Asr0 (v : Word) : Statement (.writeD5Asr0 v) := ⟨rfl, rfl⟩
theorem readD5Asr1 : Statement .readD5Asr1 := ⟨rfl, rfl⟩
theorem writeD5Asr1 (v : Word) : Statement (.writeD5Asr1 v) := ⟨rfl, rfl⟩
theorem readD6Chcr : Statement .readD6Chcr := ⟨rfl, rfl⟩
theorem writeD6Chcr (v : Word) : Statement (.writeD6Chcr v) := ⟨rfl, rfl⟩
theorem readD6Madr : Statement .readD6Madr := ⟨rfl, rfl⟩
theorem writeD6Madr (v : Word) : Statement (.writeD6Madr v) := ⟨rfl, rfl⟩
theorem readD6Qwc : Statement .readD6Qwc := ⟨rfl, rfl⟩
theorem writeD6Qwc (v : Word) : Statement (.writeD6Qwc v) := ⟨rfl, rfl⟩
theorem readD6Tadr : Statement .readD6Tadr := ⟨rfl, rfl⟩
theorem writeD6Tadr (v : Word) : Statement (.writeD6Tadr v) := ⟨rfl, rfl⟩
theorem readD6Asr0 : Statement .readD6Asr0 := ⟨rfl, rfl⟩
theorem writeD6Asr0 (v : Word) : Statement (.writeD6Asr0 v) := ⟨rfl, rfl⟩
theorem readD6Asr1 : Statement .readD6Asr1 := ⟨rfl, rfl⟩
theorem writeD6Asr1 (v : Word) : Statement (.writeD6Asr1 v) := ⟨rfl, rfl⟩
theorem readD7Chcr : Statement .readD7Chcr := ⟨rfl, rfl⟩
theorem writeD7Chcr (v : Word) : Statement (.writeD7Chcr v) := ⟨rfl, rfl⟩
theorem readD7Madr : Statement .readD7Madr := ⟨rfl, rfl⟩
theorem writeD7Madr (v : Word) : Statement (.writeD7Madr v) := ⟨rfl, rfl⟩
theorem readD7Qwc : Statement .readD7Qwc := ⟨rfl, rfl⟩
theorem writeD7Qwc (v : Word) : Statement (.writeD7Qwc v) := ⟨rfl, rfl⟩
theorem readD7Tadr : Statement .readD7Tadr := ⟨rfl, rfl⟩
theorem writeD7Tadr (v : Word) : Statement (.writeD7Tadr v) := ⟨rfl, rfl⟩
theorem readD7Asr0 : Statement .readD7Asr0 := ⟨rfl, rfl⟩
theorem writeD7Asr0 (v : Word) : Statement (.writeD7Asr0 v) := ⟨rfl, rfl⟩
theorem readD7Asr1 : Statement .readD7Asr1 := ⟨rfl, rfl⟩
theorem writeD7Asr1 (v : Word) : Statement (.writeD7Asr1 v) := ⟨rfl, rfl⟩
theorem readD8Chcr : Statement .readD8Chcr := ⟨rfl, rfl⟩
theorem writeD8Chcr (v : Word) : Statement (.writeD8Chcr v) := ⟨rfl, rfl⟩
theorem readD8Madr : Statement .readD8Madr := ⟨rfl, rfl⟩
theorem writeD8Madr (v : Word) : Statement (.writeD8Madr v) := ⟨rfl, rfl⟩
theorem readD8Qwc : Statement .readD8Qwc := ⟨rfl, rfl⟩
theorem writeD8Qwc (v : Word) : Statement (.writeD8Qwc v) := ⟨rfl, rfl⟩
theorem readD8Tadr : Statement .readD8Tadr := ⟨rfl, rfl⟩
theorem writeD8Tadr (v : Word) : Statement (.writeD8Tadr v) := ⟨rfl, rfl⟩
theorem readD8Asr0 : Statement .readD8Asr0 := ⟨rfl, rfl⟩
theorem writeD8Asr0 (v : Word) : Statement (.writeD8Asr0 v) := ⟨rfl, rfl⟩
theorem readD8Asr1 : Statement .readD8Asr1 := ⟨rfl, rfl⟩
theorem writeD8Asr1 (v : Word) : Statement (.writeD8Asr1 v) := ⟨rfl, rfl⟩
theorem readD8Sadr : Statement .readD8Sadr := ⟨rfl, rfl⟩
theorem writeD8Sadr (v : Word) : Statement (.writeD8Sadr v) := ⟨rfl, rfl⟩
theorem readD9Chcr : Statement .readD9Chcr := ⟨rfl, rfl⟩
theorem writeD9Chcr (v : Word) : Statement (.writeD9Chcr v) := ⟨rfl, rfl⟩
theorem readD9Madr : Statement .readD9Madr := ⟨rfl, rfl⟩
theorem writeD9Madr (v : Word) : Statement (.writeD9Madr v) := ⟨rfl, rfl⟩
theorem readD9Qwc : Statement .readD9Qwc := ⟨rfl, rfl⟩
theorem writeD9Qwc (v : Word) : Statement (.writeD9Qwc v) := ⟨rfl, rfl⟩
theorem readD9Tadr : Statement .readD9Tadr := ⟨rfl, rfl⟩
theorem writeD9Tadr (v : Word) : Statement (.writeD9Tadr v) := ⟨rfl, rfl⟩
theorem readD9Asr0 : Statement .readD9Asr0 := ⟨rfl, rfl⟩
theorem writeD9Asr0 (v : Word) : Statement (.writeD9Asr0 v) := ⟨rfl, rfl⟩
theorem readD9Asr1 : Statement .readD9Asr1 := ⟨rfl, rfl⟩
theorem writeD9Asr1 (v : Word) : Statement (.writeD9Asr1 v) := ⟨rfl, rfl⟩
theorem readD9Sadr : Statement .readD9Sadr := ⟨rfl, rfl⟩
theorem writeD9Sadr (v : Word) : Statement (.writeD9Sadr v) := ⟨rfl, rfl⟩
theorem readDCtrl : Statement .readDCtrl := ⟨rfl, rfl⟩
theorem writeDCtrl (v : Word) : Statement (.writeDCtrl v) := ⟨rfl, rfl⟩
theorem readDStat : Statement .readDStat := ⟨rfl, rfl⟩
theorem writeDStat (v : Word) : Statement (.writeDStat v) := ⟨rfl, rfl⟩
theorem readDPcr : Statement .readDPcr := ⟨rfl, rfl⟩
theorem writeDPcr (v : Word) : Statement (.writeDPcr v) := ⟨rfl, rfl⟩
theorem readDStadr : Statement .readDStadr := ⟨rfl, rfl⟩
theorem writeDStadr (v : Word) : Statement (.writeDStadr v) := ⟨rfl, rfl⟩
theorem accessDSqwcRefused (a : AccessKind) : Statement (.accessDSqwcRefused a) := ⟨rfl, rfl⟩
theorem accessDRbsrRefused (a : AccessKind) : Statement (.accessDRbsrRefused a) := ⟨rfl, rfl⟩
theorem accessDRborRefused (a : AccessKind) : Statement (.accessDRborRefused a) := ⟨rfl, rfl⟩
theorem accessDEnablerRefused (a : AccessKind) : Statement (.accessDEnablerRefused a) := ⟨rfl, rfl⟩
theorem accessDEnablewRefused (a : AccessKind) : Statement (.accessDEnablewRefused a) := ⟨rfl, rfl⟩

end Sys2Proof.Laws.EncodesRow
end

