-- ==== Sys2Proof/Tests/Slice0.lean ====
section
/-! SUPPORT. Tests. The expected results are those of spec/95_test_vectors.md (named in each test) or are written out by
hand from the rule named. After them stands, for every obligation with hypotheses, a witness: concrete values that meet
all of them together, at a boundary value for each clause. -/

open Sys2Proof Sys2Proof.Machine Sys2Proof.Claims

namespace Sys2Proof.Tests

/-! ## WellFormed: each check refuses an ill-formed term -/

/-- A tag's operands with an address, all else 0. -/
def fieldsAt (a : BitVec 31) : TagFields := ⟨0#16, 0#10, 0#2, false, a, false⟩

theorem test_wf_refe_refused_toMemory :
    (Instr.refe (fieldsAt 0#31)).wellFormed .toMemory false = false ∧
      (Instr.refe (fieldsAt 0#31)).wellFormed .fromMemory false = true := by decide

theorem test_wf_cnts_refused_fromMemory :
    (Instr.cnts (fieldsAt 0#31)).wellFormed .fromMemory false = false ∧
      (Instr.cnts (fieldsAt 0#31)).wellFormed .toMemory false = true := by decide

theorem test_wf_misaligned_refused_with_tte :
    (Instr.cnt (fieldsAt 8#31)).wellFormed .fromMemory true = false ∧
      (Instr.cnt (fieldsAt 8#31)).wellFormed .fromMemory false = true := by decide

theorem test_wf_reserved_bits_not_clean :
    (Instr.next ⟨0#16, 1#10, 0#2, false, 0#31, false⟩).producerClean = false ∧
      (Instr.next (fieldsAt 0#31)).producerClean = true := by decide

/-! ## Decoding: tags (95_test_vectors.md section 2) -/

/-- Whether a tag decodes to an instruction. -/
def tagIs (raw : BitVec 128) (dir : Direction) (tte : Bool) (i : Instr) : Bool :=
  match decodeRaw raw dir tte with
  | .ok j => i == j
  | .error _ => false

/-- V1, V4, V5, V6, V7, V8, V9: the direction does not matter to these kinds. -/
theorem test_decode_kinds : [Direction.fromMemory, .toMemory].all (fun d => [false, true].all fun t =>
    tagIs 0x0000100020000004#128 d t (.next ⟨4#16, 0#10, 0#2, false, 0x1000#31, false⟩) &&
    tagIs 0x0000000010000002#128 d t (.cnt ⟨2#16, 0#10, 0#2, false, 0#31, false⟩) &&
    tagIs 0x0000300030000003#128 d t (.ref ⟨3#16, 0#10, 0#2, false, 0x3000#31, false⟩) &&
    tagIs 0x0000400040000001#128 d t (.refs ⟨1#16, 0#10, 0#2, false, 0x4000#31, false⟩) &&
    tagIs 0x0000500050000001#128 d t (.call ⟨1#16, 0#10, 0#2, false, 0x5000#31, false⟩) &&
    tagIs 0x0000000060000000#128 d t (.ret ⟨0#16, 0#10, 0#2, false, 0#31, false⟩) &&
    tagIs 0x0000000070000001#128 d t (.endTag ⟨1#16, 0#10, 0#2, false, 0#31, false⟩)) = true := by decide

/-- V2, V3, V23, V24: kind code 0 by direction. -/
theorem test_decode_code_zero :
    tagIs 0x0000200080000008#128 .fromMemory true (.refe ⟨8#16, 0#10, 0#2, true, 0x2000#31, false⟩) &&
    tagIs 0x0000200080000008#128 .toMemory true (.cnts ⟨8#16, 0#10, 0#2, true, 0x2000#31, false⟩) &&
    tagIs 0#128 .fromMemory true (.refe (fieldsAt 0#31)) &&
    tagIs 0#128 .toMemory true (.cnts (fieldsAt 0#31)) = true := by decide

/-- V10, V11, V12, V13: the region selector and the PCE codes. -/
theorem test_decode_spr_and_pce :
    tagIs 0x8000001030000002#128 .toMemory true (.ref ⟨2#16, 0#10, 0#2, false, 0x10#31, true⟩) &&
    tagIs 0x000000001C000001#128 .toMemory true (.cnt ⟨1#16, 0#10, 3#2, false, 0#31, false⟩) &&
    tagIs 0x0000000028000000#128 .toMemory true (.next ⟨0#16, 0#10, 2#2, false, 0#31, false⟩) &&
    tagIs 0x0000000014000000#128 .toMemory true (.cnt ⟨0#16, 0#10, 1#2, false, 0#31, false⟩) = true := by decide

/-- V14, V16: misaligned with TTE; V15, V17: the same tags without. -/
theorem test_decode_alignment :
    (decodeTag 0x0000100430000001#128 .fromMemory true = .error .misaligned ∧
      decodeTag 0x0000000810000001#128 .toMemory true = .error .misaligned) ∧
    tagIs 0x0000100430000001#128 .fromMemory false (.ref ⟨1#16, 0#10, 0#2, false, 0x1004#31, false⟩) = true ∧
    tagIs 0x0000000810000001#128 .toMemory false (.cnt ⟨1#16, 0#10, 0#2, false, 8#31, false⟩) = true := by
  refine ⟨⟨rfl, rfl⟩, ?_, ?_⟩ <;> decide

/-- V18, V19, V20, V21, V22: the reserved bits, and every field at its largest. -/
theorem test_decode_extremes :
    tagIs 0x0000000013FF0002#128 .fromMemory true (.cnt ⟨2#16, 0x3FF#10, 0#2, false, 0#31, false⟩) &&
    tagIs 0xFFFFFFFFFFFFFFFF0000000070000000#128 .fromMemory true (.endTag (fieldsAt 0#31)) &&
    tagIs 0x000000001000FFFF#128 .fromMemory true (.cnt ⟨0xFFFF#16, 0#10, 0#2, false, 0#31, false⟩) &&
    tagIs 0x7FFFFFF020000000#128 .fromMemory true (.next (fieldsAt 0x7FFFFFF0#31)) &&
    tagIs 0xFFFFFFF0FC00FFFF#128 .fromMemory true (.endTag ⟨0xFFFF#16, 0#10, 3#2, true, 0x7FFFFFF0#31, true⟩)
      = true := by decide

/-- The byte order of R38, and a list that is no tag (R49). -/
theorem test_decode_bytes :
    rawOfBytes [1#8, 0#8, 0#8, 0x30#8, 0#8, 0x30#8, 0#8, 0x80#8, 0#8, 0#8, 0#8, 0#8, 0#8, 0#8, 0#8, 0#8]
        = 0x8000300030000001#128 ∧
      decodeTagBytes [] .fromMemory false = .error .notSixteenBytes := ⟨by decide, rfl⟩

/-- The encoder of R54: Call, and R68's lossy bits. -/
theorem test_encode :
    encodeTag ⟨1#16, 0#2, .call, false, 0x5000#31, false⟩ = 0x0000500050000001#128 ∧
      encodeTag ⟨2#16, 0#2, .continue_, false, 0#31, false⟩ = 0x0000000010000002#128 := by decide

/-- R57: the assembler's text of a tag and of an access. -/
theorem test_text :
    (AsmTag.mk .next 4#16 0x2000#31 false false 0#2).text = "next qwc=4, addr=0x2000, spr=0, irq=0, pce=0" ∧
      accessText (.chan .gif .qwc) (.write 0x10#32) = "W D2_QWC, 0x10" := by decide

/-! ## Decoding: register accesses (the addresses of R15), a read and a write of every register -/

/-- Whether a read and a write of 0xA5 at each address decode to the instructions beside it. -/
def decodesTo (rows : List (Word × Instr × Instr)) : Bool :=
  rows.all fun (a, r, w) =>
    (match decodeAccess Config.ps2 ⟨a, .w32, .read⟩ with | .ok i => i == r | .error _ => false) &&
    (match decodeAccess Config.ps2 ⟨a, .w32, .write 0xA5#32⟩ with | .ok i => i == w | .error _ => false)

theorem test_decode_d0 : decodesTo [
    (0x10008000#32, .readD0Chcr, .writeD0Chcr 0xA5#32),
    (0x10008010#32, .readD0Madr, .writeD0Madr 0xA5#32),
    (0x10008020#32, .readD0Qwc, .writeD0Qwc 0xA5#32),
    (0x10008030#32, .readD0Tadr, .writeD0Tadr 0xA5#32),
    (0x10008040#32, .readD0Asr0, .writeD0Asr0 0xA5#32),
    (0x10008050#32, .readD0Asr1, .writeD0Asr1 0xA5#32)] = true := by decide

theorem test_decode_d1 : decodesTo [
    (0x10009000#32, .readD1Chcr, .writeD1Chcr 0xA5#32),
    (0x10009010#32, .readD1Madr, .writeD1Madr 0xA5#32),
    (0x10009020#32, .readD1Qwc, .writeD1Qwc 0xA5#32),
    (0x10009030#32, .readD1Tadr, .writeD1Tadr 0xA5#32),
    (0x10009040#32, .readD1Asr0, .writeD1Asr0 0xA5#32),
    (0x10009050#32, .readD1Asr1, .writeD1Asr1 0xA5#32)] = true := by decide

theorem test_decode_d2 : decodesTo [
    (0x1000A000#32, .readD2Chcr, .writeD2Chcr 0xA5#32),
    (0x1000A010#32, .readD2Madr, .writeD2Madr 0xA5#32),
    (0x1000A020#32, .readD2Qwc, .writeD2Qwc 0xA5#32),
    (0x1000A030#32, .readD2Tadr, .writeD2Tadr 0xA5#32),
    (0x1000A040#32, .readD2Asr0, .writeD2Asr0 0xA5#32),
    (0x1000A050#32, .readD2Asr1, .writeD2Asr1 0xA5#32)] = true := by decide

theorem test_decode_d3 : decodesTo [
    (0x1000B000#32, .readD3Chcr, .writeD3Chcr 0xA5#32),
    (0x1000B010#32, .readD3Madr, .writeD3Madr 0xA5#32),
    (0x1000B020#32, .readD3Qwc, .writeD3Qwc 0xA5#32),
    (0x1000B030#32, .readD3Tadr, .writeD3Tadr 0xA5#32),
    (0x1000B040#32, .readD3Asr0, .writeD3Asr0 0xA5#32),
    (0x1000B050#32, .readD3Asr1, .writeD3Asr1 0xA5#32)] = true := by decide

theorem test_decode_d4 : decodesTo [
    (0x1000B400#32, .readD4Chcr, .writeD4Chcr 0xA5#32),
    (0x1000B410#32, .readD4Madr, .writeD4Madr 0xA5#32),
    (0x1000B420#32, .readD4Qwc, .writeD4Qwc 0xA5#32),
    (0x1000B430#32, .readD4Tadr, .writeD4Tadr 0xA5#32),
    (0x1000B440#32, .readD4Asr0, .writeD4Asr0 0xA5#32),
    (0x1000B450#32, .readD4Asr1, .writeD4Asr1 0xA5#32)] = true := by decide

theorem test_decode_d5 : decodesTo [
    (0x1000C000#32, .readD5Chcr, .writeD5Chcr 0xA5#32),
    (0x1000C010#32, .readD5Madr, .writeD5Madr 0xA5#32),
    (0x1000C020#32, .readD5Qwc, .writeD5Qwc 0xA5#32),
    (0x1000C030#32, .readD5Tadr, .writeD5Tadr 0xA5#32),
    (0x1000C040#32, .readD5Asr0, .writeD5Asr0 0xA5#32),
    (0x1000C050#32, .readD5Asr1, .writeD5Asr1 0xA5#32)] = true := by decide

theorem test_decode_d6 : decodesTo [
    (0x1000C400#32, .readD6Chcr, .writeD6Chcr 0xA5#32),
    (0x1000C410#32, .readD6Madr, .writeD6Madr 0xA5#32),
    (0x1000C420#32, .readD6Qwc, .writeD6Qwc 0xA5#32),
    (0x1000C430#32, .readD6Tadr, .writeD6Tadr 0xA5#32),
    (0x1000C440#32, .readD6Asr0, .writeD6Asr0 0xA5#32),
    (0x1000C450#32, .readD6Asr1, .writeD6Asr1 0xA5#32)] = true := by decide

theorem test_decode_d7 : decodesTo [
    (0x1000C800#32, .readD7Chcr, .writeD7Chcr 0xA5#32),
    (0x1000C810#32, .readD7Madr, .writeD7Madr 0xA5#32),
    (0x1000C820#32, .readD7Qwc, .writeD7Qwc 0xA5#32),
    (0x1000C830#32, .readD7Tadr, .writeD7Tadr 0xA5#32),
    (0x1000C840#32, .readD7Asr0, .writeD7Asr0 0xA5#32),
    (0x1000C850#32, .readD7Asr1, .writeD7Asr1 0xA5#32)] = true := by decide

theorem test_decode_d8 : decodesTo [
    (0x1000D000#32, .readD8Chcr, .writeD8Chcr 0xA5#32),
    (0x1000D010#32, .readD8Madr, .writeD8Madr 0xA5#32),
    (0x1000D020#32, .readD8Qwc, .writeD8Qwc 0xA5#32),
    (0x1000D030#32, .readD8Tadr, .writeD8Tadr 0xA5#32),
    (0x1000D040#32, .readD8Asr0, .writeD8Asr0 0xA5#32),
    (0x1000D050#32, .readD8Asr1, .writeD8Asr1 0xA5#32),
    (0x1000D080#32, .readD8Sadr, .writeD8Sadr 0xA5#32)] = true := by decide

theorem test_decode_d9 : decodesTo [
    (0x1000D400#32, .readD9Chcr, .writeD9Chcr 0xA5#32),
    (0x1000D410#32, .readD9Madr, .writeD9Madr 0xA5#32),
    (0x1000D420#32, .readD9Qwc, .writeD9Qwc 0xA5#32),
    (0x1000D430#32, .readD9Tadr, .writeD9Tadr 0xA5#32),
    (0x1000D440#32, .readD9Asr0, .writeD9Asr0 0xA5#32),
    (0x1000D450#32, .readD9Asr1, .writeD9Asr1 0xA5#32),
    (0x1000D480#32, .readD9Sadr, .writeD9Sadr 0xA5#32)] = true := by decide

theorem test_decode_globals : decodesTo [
    (0x1000E000#32, .readDCtrl, .writeDCtrl 0xA5#32),
    (0x1000E010#32, .readDStat, .writeDStat 0xA5#32),
    (0x1000E020#32, .readDPcr, .writeDPcr 0xA5#32),
    (0x1000E060#32, .readDStadr, .writeDStadr 0xA5#32),
    (0x1000E030#32, .accessDSqwcRefused .read, .accessDSqwcRefused (.write 0xA5#32)),
    (0x1000E040#32, .accessDRbsrRefused .read, .accessDRbsrRefused (.write 0xA5#32)),
    (0x1000E050#32, .accessDRborRefused .read, .accessDRborRefused (.write 0xA5#32)),
    (0x1000F520#32, .accessDEnablerRefused .read, .accessDEnablerRefused (.write 0xA5#32)),
    (0x1000F590#32, .accessDEnablewRefused .read, .accessDEnablewRefused (.write 0xA5#32))] = true := by decide

/-- G6, G7, and an address off a multiple of 4 (R126, R127). -/
theorem test_decode_no_register :
    decodeAccess Config.ps2 ⟨0x1000A080#32, .w32, .read⟩ = .error .unmappedRegister ∧
      decodeAccess Config.ps2 ⟨0x1000E010#32, .w8, .write 0#32⟩ = .error .accessForm ∧
      decodeAccess Config.ps2 ⟨0x1000E012#32, .w32, .read⟩ = .error .accessForm := ⟨rfl, rfl, rfl⟩

/-- Every register of R15 has an address of its own. -/
theorem test_find_addr (r : RegName) : Config.ps2.find (Config.ps2.regs.addr r) = some r := by
  cases r with
  | chan c g => cases c <;> cases g <;> decide
  | _ => decide

/-! ## Single steps -/

/-- Whether an outcome is a next state with a property. -/
def nextIs (r : Result) (p : State → Bool) : Bool :=
  match r with
  | .next t => p t
  | .fault _ => false
  | .refused _ => false

/-- Whether an outcome is a given refusal. -/
def refusedIs (r : Result) (x : Refusal) : Bool :=
  match r with
  | .next _ => false
  | .fault _ => false
  | .refused y => x == y

/-- Whether an outcome is a given fault. -/
def faultIs (r : Result) (x : Fault) : Bool :=
  match r with
  | .next _ => false
  | .fault y => x == y
  | .refused _ => false

/-- A Running chain channel between two tags, TADR at `t`, DIR 1. -/
def chainChan (t : Word) : ChannelState :=
  { ChannelState.reset with
    chcr := ⟨true, 1#2, 2#2, false, false, 0#16⟩
    qwc := ⟨0#16, true⟩, tadr := ⟨t, true⟩, phase := .running, mode := .chain, cap := 2 }

/-- Reset, DMAE = 1, with channel `c` as given. -/
def withChan (c : Chan) (x : ChannelState) : State := { State.reset.setChan c x with dCtrl := 1#11 }

/-- `withChan` for a chain channel, with a tag in Memory at its TADR. -/
def atTag (c : Chan) (t : Word) (lo64 : Nat) (upd : ChannelState → ChannelState) : State :=
  (withChan c (upd (chainChan t))).writeBytes .memory (BitVec.ofNat 31 t.toNat) (bytesOfNat 16 lo64)

/-- The tag step of channel `c` of that state. -/
def tagStepOf (c : Chan) (s : State) : Result := step (given s (.chan c .tagStep))

/-- What a tag leaves: MADR, QWC, TADR, the occupancy, end_after, irq_armed, the role. -/
def leaves (c : Chan) (m : Word) (q : BitVec 16) (t : Word) (sp : Fin 3) (e i : Bool) (r : StallRole) (s : State) : Bool :=
  let ch := s.chan c
  ch.madr == ⟨m, true⟩ && ch.qwc == ⟨q, true⟩ && ch.tadr == ⟨t, true⟩ && ch.sp == sp && ch.endAfter == e &&
    ch.irqArmed == i && ch.stallRole == r && ch.descOpen

/-- K1: CHCR.TAG and the two events too. -/
theorem test_refe : nextIs (tagStepOf .gif (atTag .gif 0x1000#32 0x0000200080000008
      (fun ch => { ch with chcr := { ch.chcr with tie := true } })))
    (fun s => leaves .gif 0x2000#32 8#16 0x1000#32 0 true true .none s && (s.chan .gif).chcr.tag == 0x8000#16 &&
      s.events == [.tagRead .gif .memory 0x1000#31, .priorityHint .gif 0#2]) = true := by decide

/-- K3, K4: the role of a ContinueStall. -/
theorem test_cnts :
    nextIs (tagStepOf .fromSpr { atTag .fromSpr 0x100#32 0x0000000000000002 id with dCtrl := 0x21#11 })
      (leaves .fromSpr 0x110#32 2#16 0x130#32 0 false false .publish) &&
    nextIs (tagStepOf .sif0 { atTag .sif0 0x100#32 0x0000000000000002 id with dCtrl := 0x21#11 })
      (leaves .sif0 0x110#32 2#16 0x130#32 0 false false .none) = true := by decide

/-- K21, and K8: the data in ScratchPad. -/
theorem test_cnt :
    nextIs (tagStepOf .gif (atTag .gif 0x1000#32 0x0000000090000002
      (fun ch => { ch with chcr := { ch.chcr with tie := true } })))
      (leaves .gif 0x1010#32 2#16 0x1030#32 0 false true .none) &&
    nextIs (tagStepOf .gif (atTag .gif 0x1000#32 0x8000000010000001 id))
      (leaves .gif 0x80001010#32 1#16 0x1020#32 0 false false .none) = true := by decide

/-- K7, the wrap in 31 bits with the region bit kept, the fetch itself left out. -/
theorem test_cnt_wraps : nextIs (exec (.cnt (fieldsAt 0#31)) { withChan .gif (chainChan 0xFFFFFFF0#32) with mux := .gif })
    (leaves .gif 0#32 0#16 0x80000000#32 0 false false .none) = true := by decide

/-- K9; K10's region rule, the fetch itself left out. -/
theorem test_next :
    nextIs (tagStepOf .gif (atTag .gif 0x1000#32 0x0000200020000004 id))
      (leaves .gif 0x1010#32 4#16 0x2000#32 0 false false .none) &&
    nextIs (exec (.next ⟨1#16, 0#10, 0#2, false, 0x100#31, false⟩)
        { withChan .gif (chainChan 0x80000040#32) with mux := .gif })
      (leaves .gif 0x50#32 1#16 0x80000100#32 0 false false .none) = true := by decide

/-- K11. -/
theorem test_ref : nextIs (tagStepOf .gif (atTag .gif 0x1000#32 0x0000300030000003 id))
    (leaves .gif 0x3000#32 3#16 0x1010#32 0 false false .none) = true := by decide

/-- K12, K13: the role of a ReferenceStall. -/
theorem test_refs :
    nextIs (tagStepOf .gif { atTag .gif 0x1000#32 0x0000400040000004 id with dCtrl := 0x81#11 })
      (leaves .gif 0x4000#32 4#16 0x1010#32 0 false false .check) &&
    nextIs (tagStepOf .vif1 { atTag .vif1 0x1000#32 0x0000400040000004 id with dCtrl := 0x81#11 })
      (leaves .vif1 0x4000#32 4#16 0x1010#32 0 false false .none) = true := by decide

/-- K14. -/
theorem test_call : nextIs (tagStepOf .vif1 (atTag .vif1 0x1000#32 0x0000300050000001 id))
    (fun s => leaves .vif1 0x1010#32 1#16 0x3000#32 1 false false .none s && (s.chan .vif1).asr0 == ⟨0x1020#32, true⟩)
      = true := by decide

/-- K15: StackOverflow, with nothing but the phase and BEIS written. -/
theorem test_call_overflow : nextIs (tagStepOf .vif1 (atTag .vif1 0x4000#32 0x0000500050000000
      (fun ch => { ch with sp := 2, asr0 := ⟨1#32, true⟩, asr1 := ⟨2#32, true⟩ })))
    (fun s => (s.chan .vif1).phase == .errored .stackOverflow && s.dStat == 0x8000#32 && (s.chan .vif1).sp == 2 &&
      (s.chan .vif1).tadr == ⟨0x4000#32, true⟩ && (s.chan .vif1).asr0 == ⟨1#32, true⟩ &&
      s.events == [.tagRead .vif1 .memory 0x4000#31]) = true := by decide

/-- K16. -/
theorem test_ret : nextIs (tagStepOf .vif1 (atTag .vif1 0x4000#32 0x0000000060000002
      (fun ch => { ch with sp := 2, asr0 := ⟨1#32, true⟩, asr1 := ⟨0x3010#32, true⟩ })))
    (leaves .vif1 0x4010#32 2#16 0x3010#32 1 false false .none) = true := by decide

/-- K17: StackUnderflow. -/
theorem test_ret_underflow : nextIs (tagStepOf .vif1 (atTag .vif1 0x4000#32 0x0000000060000000 id))
    (fun s => (s.chan .vif1).phase == .errored .stackUnderflow && s.dStat == 0x8000#32 &&
      (s.chan .vif1).tadr == ⟨0x4000#32, true⟩) = true := by decide

/-- K20: the stack is emptied. -/
theorem test_end : nextIs (tagStepOf .vif1 (atTag .vif1 0x2000#32 0x0000000070000000
      (fun ch => { ch with sp := 1, asr0 := ⟨0x1020#32, true⟩ })))
    (leaves .vif1 0x2010#32 0#16 0x2000#32 0 true false .none) = true := by decide

/-- K22, K23's second step, and a fetch past the default ScratchPad (K7): the errors of a tag step. -/
theorem test_tag_errors :
    nextIs (tagStepOf .gif (atTag .gif 0x1000#32 0x0000100430000001
        (fun ch => { ch with chcr := { ch.chcr with tte := true } })))
      (fun s => (s.chan .gif).phase == .errored (.malformedTag .misaligned) && s.dStat == 0x8000#32) &&
    nextIs (tagStepOf .gif (withChan .gif (chainChan 0x1004#32)))
      (fun s => (s.chan .gif).phase == .errored .misalignedAddress && s.events == []) &&
    faultIs (tagStepOf .gif (withChan .gif (chainChan 0xFFFFFFF0#32))) .tagFetchOutOfRange = true := by decide

/-- S3, S5, S7, S8, S12: writes of D_STAT. -/
theorem test_stat_write :
    [(0x00048004#32, 0x00008000#32, 0x00040004#32), (0#32, 0xFFFFFFFF#32, 0xE3FF0000#32),
      (0xE3FFE3FF#32, 1#32, 0xE3FFE3FE#32), (0#32, 0x1C001C00#32, 0#32),
      (0x6#32, 0x80040002#32, 0x80040004#32)].all (fun (d, v, e) =>
        nextIs (exec (.writeDStat v) { State.reset with dStat := d }) (fun s => s.dStat == e)) = true := by decide

/-- S2, S9, S10, S15: raise, pending, the interrupt output. -/
theorem test_stat_raise :
    statRaise 0#32 (.cis .gif) = 4#32 ∧ irqLevel 0x00040004#32 = true ∧ irqLevel 4#32 = false ∧
      statRaise 0#32 .beis = 0x8000#32 ∧ irqLevel 0x8000#32 = false := by decide

/-- F1, F2, F3, F4: the starts that stop. -/
theorem test_start_stops :
    refusedIs (exec (.writeD1Chcr 0x109#32) State.reset) .interleaveMode &&
    refusedIs (exec (.writeD1Chcr 0x10D#32) State.reset) .reservedMode &&
    refusedIs (exec (.writeD1Chcr 0x101#32) { State.reset with dCtrl := 5#11 }) .mfifo &&
    faultIs (exec (.writeD1Chcr 0x101#32) State.reset) .useOfUndefined = true := by decide

/-- F5: a chain start with MADR Undefined and QWC 0. -/
theorem test_start_chain :
    nextIs (exec (.writeD1Chcr 0x105#32) (State.reset.setChan .vif1 { ChannelState.reset with qwc := ⟨0#16, true⟩ }))
      (fun s => (s.chan .vif1).phase == .running && (s.chan .vif1).mode == .chain && !(s.chan .vif1).descOpen)
      = true := by decide

/-- F18, and F17: SADR. -/
theorem test_slice_sadr :
    nextIs (step (given { withChan .fromSpr { chainChan 0#32 with
        madr := ⟨0x4000#32, true⟩, qwc := ⟨2#16, true⟩, descOpen := true } with sadr8 := ⟨0x3FF0#14, true⟩ }
        (.chan .fromSpr (.slice 2))))
      (fun s => s.sadr8 == ⟨0x10#14, true⟩ && (s.chan .fromSpr).madr == ⟨0x4020#32, true⟩) &&
    faultIs (step (given (withChan .fromSpr { chainChan 0#32 with
        madr := ⟨0x4000#32, true⟩, qwc := ⟨2#16, true⟩, descOpen := true }) (.chan .fromSpr (.slice 1))))
      .useOfUndefined = true := by decide

/-- T1 to T7: the stall limit. -/
theorem test_stall_limit :
    let ch (m : Word) (r : StallRole) : ChannelState := { ChannelState.reset with madr := ⟨m, true⟩, stallRole := r }
    stallLimit (ch 0x4000#32 .check) ⟨0x4020#31, true⟩ = some 2 ∧
      stallLimit (ch 0x4000#32 .check) ⟨0x4000#31, true⟩ = some 0 ∧
      stallLimit (ch 0x4000#32 .check) ⟨0x3FF0#31, true⟩ = some 0 ∧
      stallLimit (ch 0x4000#32 .check) ⟨0x4018#31, true⟩ = some 1 ∧
      stallLimit (ch 0x4000#32 .none) ⟨0#31, false⟩ = some 65535 ∧
      stallLimit (ch 0x4000#32 .check) ⟨0#31, false⟩ = none ∧
      stallLimit (ch 0x80004000#32 .check) ⟨0x4020#31, true⟩ = some 2 := by decide

/-- T8, T9: a publishing slice, and the suspension. -/
theorem test_publish_and_suspend :
    let open_ (r : StallRole) : ChannelState :=
      { chainChan 0#32 with madr := ⟨0x4000#32, true⟩, qwc := ⟨2#16, true⟩, descOpen := true, stallRole := r }
    nextIs (step (given { withChan .fromSpr (open_ .publish) with sadr8 := ⟨0#14, true⟩ } (.chan .fromSpr (.slice 2))))
      (fun s => s.dStadr == ⟨0x4020#31, true⟩) &&
    nextIs (step (given { withChan .gif (open_ .check) with dStadr := ⟨0x4000#31, true⟩ } (.chan .gif .suspend)))
      (fun s => (s.chan .gif).phase == .suspended && s.dStat == 0x2000#32) = true := by decide

/-- G1, G2, G4, G10, G11, G13: a write, then a read. -/
theorem test_registers_read_back :
    let thenRead (w r : Instr) (v : Word) : Bool :=
      nextIs (exec w State.reset) (fun s => nextIs (exec r s) (fun t => t.hostData == v))
    nextIs (exec .readD2Chcr State.reset) (fun s => s.hostData == 0#32) &&
      thenRead (.writeD2Chcr 0x34#32) .readD2Chcr 0x34#32 && thenRead (.writeD2Chcr 0xFFFFFE02#32) .readD2Chcr 0#32 &&
      thenRead (.writeD2Qwc 0x12345678#32) .readD2Qwc 0x5678#32 &&
      thenRead (.writeD8Sadr 0xFFFFFFFF#32) .readD8Sadr 0x3FFF#32 &&
      thenRead (.writeDPcr 0xFFFFFFFF#32) .readDPcr 0x83FF03FF#32 &&
      thenRead (.writeDCtrl 0xFFFFFFFF#32) .readDCtrl 0x7FF#32 &&
      thenRead (.writeDStadr 0xFFFFFFFF#32) .readDStadr 0x7FFFFFFF#32 = true := by decide

/-- G8, G9, G12, G14, G17: accesses to an active channel, and to a register out of scope. -/
theorem test_active_channel :
    let s := withChan .gif (chainChan 0x1000#32)
    refusedIs (exec (.writeD2Madr 0x1000#32) s) .writeWhileActive &&
      refusedIs (exec (.writeD2Chcr 0x105#32) s) .writeWhileActive &&
      refusedIs (exec (.writeDCtrl 5#32) s) .mfifo &&
      refusedIs (step (given s (.host ⟨0x1000F520#32, .w32, .read⟩))) .unmappedRegister &&
      nextIs (exec (.writeD2Chcr 5#32) (withChan .gif { chainChan 0#32 with phase := .errored .stackOverflow }))
        (fun t => t == withChan .gif { chainChan 0#32 with phase := .errored .stackOverflow }) = true := by decide

/-- How a program comes to run: the words that the host places run as the next step. -/
theorem test_withFetchWord :
    nextIs (step (State.reset.withFetchWord 32 0x20000004)) (fun s => leaves .gif 0x10#32 4#16 0#32 0 false false .none s) &&
      nextIs (step (State.reset.withFetchWord 32 0x1000E010)) (fun s => s.hostData == 0#32) = true := by decide


/-! ## The tables of R120 and the parameters of R8 -/

theorem test_stall_pairs :
    [0#11, 0x10#11, 0x20#11, 0x30#11].map stallSource = [none, some .sif0, some .fromSpr, some .fromIpu] ∧
      [0#11, 0x40#11, 0x80#11, 0xC0#11].map stallDrain = [none, some .vif1, some .gif, some .sif1] := by decide

/-- A block of eight channels has no registers of channels 8 and 9, and still those of channel 7 and the global ones. -/
theorem test_nch :
    let g := { Config.ps2 with nch := 8 }
    g.find 0x1000D000#32 = none ∧ g.find 0x1000D480#32 = none ∧ g.find 0x1000C800#32 = some (.chan .sif2 .chcr) ∧
      g.find 0x1000E060#32 = some .dStadr := by decide

theorem test_channel_names : Config.ps2.chNameOf .vif0 = "VIF0" ∧ Config.ps2.chNameOf .toSpr = "toSPR" := by decide

/-! ## Witnesses: values that meet the hypotheses of each obligation

A witness is named after its obligation; `_a`, `_b`, … are its clauses in order. -/

theorem isNext {r : Result} (h : nextIs r (fun _ => true) = true) : ∃ t, r = .next t := by
  cases r with
  | next t => exact ⟨t, rfl⟩
  | fault _ => cases h
  | refused _ => cases h

theorem witness_DecodeInvertsEncode :
    10 ≤ Config.ps2.nch ∧ (∀ r q, Config.ps2.regs.addr r = Config.ps2.regs.addr q → r = q) ∧
      (∀ r, (Config.ps2.regs.addr r).toNat % 4 = 0) ∧
      (Instr.call ⟨0xFFFF#16, 0x3FF#10, 3#2, true, 0x7FFFFFF0#31, true⟩).wellFormed .toMemory true = true := by
  refine ⟨by decide, fun r q h => ?_, fun r => ?_, by decide⟩
  · exact Option.some.inj ((test_find_addr r).symm.trans (h ▸ test_find_addr q))
  · cases r with
    | chan c g => cases c <;> cases g <;> decide
    | _ => decide

theorem witness_TagRoundTrip :
    decodeTag 0xFFFFFFF0FC00FFFF#128 .toMemory true = .ok ⟨0xFFFF#16, 3#2, .end_, true, 0x7FFFFFF0#31, true⟩ ∧
      (DmaTag.mk 0xFFFF#16 3#2 .end_ true 0x7FFFFFF0#31 true).wellFormed .toMemory true = true := ⟨rfl, by decide⟩

theorem witness_DecoderIgnoresReservedBits (i : Nat) (h : i < 16 ∨ 26 ≤ i ∧ i < 64) :
    (0#128).getLsbD i = (0x80000000000000010000000003FF0000#128).getLsbD i := by
  have : i < 64 := by omega
  interval_cases i <;> first | rfl | omega

/-- An empty stack of capacity 1, and one of capacity 2 with one entry. -/
theorem witness_CallTransition :
    (∃ s : State, (s.chan s.mux).sp < (s.chan s.mux).cap ∧ (s.chan s.mux).cap = 1) ∧
      ∃ s : State, (s.chan s.mux).sp < (s.chan s.mux).cap ∧ (s.chan s.mux).sp = 1 :=
  ⟨⟨withChan .vif0 { chainChan 0#32 with cap := 1 }, by decide⟩, ⟨withChan .vif0 { chainChan 0#32 with sp := 1 }, by decide⟩⟩

/-- A full stack of capacity 2, and one of capacity 0 (K15, K18). -/
theorem witness_CallOverflows :
    (∃ s : State, (s.chan s.mux).cap ≤ (s.chan s.mux).sp ∧ (s.chan s.mux).cap = 2) ∧
      ∃ s : State, (s.chan s.mux).cap ≤ (s.chan s.mux).sp ∧ (s.chan s.mux).cap = 0 :=
  ⟨⟨withChan .vif0 { chainChan 0#32 with sp := 2 }, by decide⟩, ⟨State.reset, by decide⟩⟩

/-- One entry, and two. -/
theorem witness_ReturnTransition :
    (∃ s : State, (s.chan s.mux).sp = 1 ∧ (s.chan s.mux).asr0.defined = true) ∧
      ∃ s : State, (s.chan s.mux).sp = 2 ∧ (s.chan s.mux).asr1.defined = true :=
  ⟨⟨withChan .vif0 { chainChan 0#32 with sp := 1, asr0 := ⟨0x20#32, true⟩ }, by decide⟩,
    ⟨withChan .vif0 { chainChan 0#32 with sp := 2, asr1 := ⟨0x20#32, true⟩ }, by decide⟩⟩

theorem witness_ReturnUnderflows :
    (State.reset.chan State.reset.mux).sp = 0 ∧
      (∃ s : State, (s.chan s.mux).sp = 1 ∧ (s.chan s.mux).asr0.defined = false) ∧
      ∃ s : State, (s.chan s.mux).sp = 2 ∧ (s.chan s.mux).asr1.defined = false :=
  ⟨by decide, ⟨withChan .vif0 { chainChan 0#32 with sp := 1 }, by decide⟩,
    ⟨withChan .vif0 { chainChan 0#32 with sp := 2 }, by decide⟩⟩

theorem witness_OnlyReturnMovesTagRegion : TagKind.call ≠ .return_ ∧
    ∃ t, exec (Instr.ofTag (fieldsAt 0x7FFFFFF0#31) .call) (withChan .vif0 (chainChan 0xFFFFFFF0#32)) = .next t :=
  ⟨by decide, isNext (by decide)⟩

theorem witness_NestedCallsReturn : ∃ s s1 s2 : State, (s.chan s.mux).sp = 0 ∧ (s.chan s.mux).cap = 2 ∧
    exec (.call (fieldsAt 0x3000#31)) s = .next s1 ∧ exec (.call (fieldsAt 0x4000#31)) s1 = .next s2 :=
  ⟨withChan .vif0 (chainChan 0x1000#32), _, _, by decide, by decide, rfl, rfl⟩

/-- The registers that the reads answer, written (the implications of the read statements). -/
theorem witness_ChannelRegisterRead :
    let ch : ChannelState := { ChannelState.reset with
      madr := ⟨0xFFFFFFFF#32, true⟩, qwc := ⟨0xFFFF#16, true⟩, tadr := ⟨1#32, true⟩, asr0 := ⟨2#32, true⟩, asr1 := ⟨3#32, true⟩ }
    ch.madr.defined = true ∧ ch.qwc.defined = true ∧ ch.tadr.defined = true ∧ ch.asr0.defined = true ∧
      ch.asr1.defined = true := by decide

theorem witness_SadrRead :
    let s : State := { State.reset with sadr8 := ⟨0x3FFF#14, true⟩, sadr9 := ⟨0x3FFF#14, true⟩ }
    s.sadr8.defined = true ∧ s.sadr9.defined = true := by decide

theorem witness_ChannelRegisterWrite (c : Chan) : (State.reset.chan c).phase = .stopped := by cases c <;> decide

theorem witness_SadrWrite : (State.reset.chan .fromSpr).phase = .stopped ∧ (State.reset.chan .toSpr).phase = .stopped := by
  decide

theorem witness_WriteWhileActiveRefused :
    ((withChan .fromSpr (chainChan 0#32)).chan .fromSpr).phase ≠ .stopped ∧
      ((withChan .toSpr (chainChan 0#32)).chan .toSpr).phase ≠ .stopped ∧ ChanReg.madr ≠ .chcr ∧
      ((withChan .fromSpr (chainChan 0#32)).chan .fromSpr).phase = .running ∧ (0x100#32).getLsbD 8 = true := by decide

theorem witness_ChcrWriteWithoutStart :
    (0xFFFFFEFF#32).getLsbD 8 = false ∧ (State.reset.chan .gif).phase = .stopped ∧
      ((withChan .gif (chainChan 0#32)).chan .gif).phase = .running ∧
      ((withChan .gif { chainChan 0#32 with phase := .errored .misalignedAddress }).chan .gif).phase
        = .errored .misalignedAddress := by decide

/-- Both modes; Chain with QWC 0 and MADR Undefined (F5), and with QWC at its largest. -/
theorem witness_ChcrWriteStarts :
    let normal : ChannelState := { ChannelState.reset with qwc := ⟨0#16, true⟩, madr := ⟨0#32, true⟩ }
    let chain0 : ChannelState := { ChannelState.reset with qwc := ⟨0#16, true⟩ }
    let chain1 : ChannelState := { normal with qwc := ⟨0xFFFF#16, true⟩ }
    (normal.phase = .stopped ∧ normal.qwc.defined = true ∧ normal.madr.defined = true ∧
      (0x101#32).getLsbD 8 = true ∧ (0x101#32).extractLsb' 2 2 = 0#2 ∧
      State.reset.dCtrl.extractLsb' 2 2 = 0#2) ∧
    (chain0.phase = .stopped ∧ chain0.qwc.defined = true ∧ chain0.qwc.val.toNat = 0 ∧
      (0x105#32).getLsbD 8 = true ∧ (0x105#32).extractLsb' 2 2 = 1#2) ∧
    (chain1.phase = .stopped ∧ chain1.qwc.defined = true ∧ chain1.madr.defined = true) := by decide

/-- The five clauses: MOD 2, MOD 3, MFD, QWC Undefined, MADR Undefined (in Normal mode with QWC 0, in Chain mode with
QWC 1). -/
theorem witness_StartRefusals :
    let ch (q : BitVec 16) : ChannelState := { ChannelState.reset with qwc := ⟨q, true⟩ }
    (State.reset.chan .vif1).phase = .stopped ∧ (0x109#32).getLsbD 8 = true ∧
    (0x109#32).extractLsb' 2 2 = 2#2 ∧ (0x10D#32).extractLsb' 2 2 = 3#2 ∧
    ((0x105#32).getLsbD 3 = false ∧ (5#11).extractLsb' 2 2 ≠ 0#2) ∧
    (State.reset.dCtrl.extractLsb' 2 2 = 0#2 ∧ (State.reset.chan .vif1).qwc.defined = false) ∧
    ((ch 0#16).qwc.defined = true ∧ (0x101#32).getLsbD 2 = false ∧ (ch 0#16).madr.defined = false) ∧
    ((ch 1#16).qwc.defined = true ∧ (ch 1#16).qwc.val.toNat ≠ 0 ∧ (ch 1#16).madr.defined = false) := by decide

theorem witness_CtrlAccess :
    (0#32).extractLsb' 2 2 = 0#2 ∧ (∀ c, (State.reset.chan c).phase = .stopped) ∧
      (4#32).extractLsb' 2 2 ≠ 0#2 ∧ ∃ c, ((withChan .toSpr (chainChan 0#32)).chan c).phase ≠ .stopped :=
  ⟨by decide, witness_ChannelRegisterWrite, by decide, .toSpr, by decide⟩

theorem witness_StadrAccess : ({ State.reset with dStadr := ⟨0x7FFFFFFF#31, true⟩ } : State).dStadr.defined = true := rfl

theorem unmarked_reset : Unmarked State.reset := ⟨rfl, rfl⟩

/-- A wrong width at a register's address, a wrong address of the right width, and an address of neither kind: 0, the
last multiple of 4 below the first register, and SADR of channel 2. -/
theorem witness_AccessFormsRefused : Unmarked State.reset ∧
    (AccessWidth.w64 ≠ .w32 ∧ (0x1000E003#32).toNat % 4 ≠ 0) ∧
    ((0x10007FFC#32).toNat % 4 = 0 ∧
      (∀ r, State.reset.cfg.hasReg r = true → State.reset.cfg.regs.addr r ≠ 0x10007FFC#32) ∧
      (∀ r, State.reset.cfg.hasReg r = true → State.reset.cfg.regs.addr r ≠ 0#32) ∧
      ∀ r, State.reset.cfg.hasReg r = true → State.reset.cfg.regs.addr r ≠ 0x1000A080#32) :=
  ⟨unmarked_reset, by decide, by decide, find_eq_none.1 (by decide), find_eq_none.1 (by decide), find_eq_none.1 (by decide)⟩

theorem witness_ExternalInputsRaise : Unmarked State.reset := unmarked_reset

theorem witness_StepRunsDecodedAccess : Unmarked State.reset ∧ (0x1000D480#32).toNat % 4 = 0 ∧
    State.reset.cfg.find 0x1000D480#32 = some .sadr9 := ⟨unmarked_reset, by decide, by decide⟩

/-- A Running chain channel between two tags, its tag the last in reach of Memory, TTE on. -/
def lastTag : State := atTag .gif 0x1FFFFF0#32 0x0000300030000003 (fun ch => { ch with chcr := { ch.chcr with tte := true } })

theorem witness_StepRunsDecodedTag :
    (lastTag.refused = false ∧ lastTag.faulted = false ∧ lastTag.chanOn .gif = true ∧
      (lastTag.chan .gif).phase = .running ∧ (lastTag.chan .gif).mode = .chain ∧
      (lastTag.chan .gif).qwc = ⟨0#16, true⟩ ∧ (lastTag.chan .gif).descOpen = false ∧
      (lastTag.chan .gif).stopReq = false ∧ (lastTag.chan .gif).tadr = ⟨0x1FFFFF0#32, true⟩ ∧
      regOf 0x1FFFFF0#32 = false ∧ addrOf 0x1FFFFF0#32 + 16 ≤ lastTag.cfg.memSize) ∧
    decodeTagBytes ((List.range 16).map fun j => lastTag.readByte .memory (addrOf 0x1FFFFF0#32 + j))
        (directionOf lastTag .gif) (lastTag.chan .gif).chcr.tte
      = .ok (.ref ⟨3#16, 0#10, 0#2, false, 0x3000#31, false⟩) := ⟨by decide, by rfl⟩

/-- The four clauses: TADR Undefined; aligned to 8 only; one quadword past the reach of ScratchPad; the last tag in
reach with a misaligned address. -/
theorem witness_TagStepErrorOrder :
    let s (t : UReg 32) : State := withChan .gif { chainChan 0#32 with tadr := t }
    let bad := atTag .gif 0x1FFFFF0#32 0x0000300830000003 (fun ch => { ch with chcr := { ch.chcr with tte := true } })
    ((s ⟨0#32, false⟩).chanOn .gif = true ∧ ((s ⟨0#32, false⟩).chan .gif).tadr.defined = false) ∧
    ((s ⟨8#32, true⟩).chan .gif).tadr.val.toNat % 16 ≠ 0 ∧
    (((s ⟨0x80004000#32, true⟩).chan .gif).tadr.val.toNat % 16 = 0 ∧ regOf 0x80004000#32 = true ∧
      (s ⟨0x80004000#32, true⟩).cfg.sprSize < addrOf 0x80004000#32 + 16) ∧
    ((bad.chan .gif).chcr.tte = true ∧ (bad.chan .gif).tadr.val.toNat % 16 = 0 ∧ regOf 0x1FFFFF0#32 = false ∧
      addrOf 0x1FFFFF0#32 + 16 ≤ bad.cfg.memSize ∧ (bad.readByte .memory (addrOf 0x1FFFFF0#32 + 4)).toNat % 16 ≠ 0) := by
  decide

/-- An open descriptor of two quadwords at 0x4000, in a given role. -/
def openChan (r : StallRole) (q : BitVec 16) : ChannelState :=
  { chainChan 0#32 with madr := ⟨0x4000#32, true⟩, qwc := ⟨q, true⟩, descOpen := true, stallRole := r }

/-- A whole descriptor of 65535 quadwords in one slice; a checked one exactly up to the boundary; channels 8 and 9. -/
theorem witness_SliceStep :
    let whole := openChan .publish 0xFFFF#16
    let s := { withChan .gif (openChan .check 2#16) with dStadr := ⟨0x4020#31, true⟩ }
    (whole.phase = .running ∧ whole.qwc.defined = true ∧ whole.madr.defined = true ∧ 65535 ≤ whole.qwc.val.toNat) ∧
    ((s.refused = false ∧ s.faulted = false) ∧ s.chanOn .gif = true ∧ (s.chan .gif).stallRole = .check ∧
      s.dStadr.defined = true ∧ addrOf (s.chan .gif).madr.val + 16 * 2 ≤ s.dStadr.val.toNat) ∧
    ({ s with sadr8 := ⟨0#14, true⟩, sadr9 := ⟨0#14, true⟩ } : State).sadr8.defined = true := by decide

/-- The two faults: a checked descriptor with D_STADR Undefined (T6); channels 8 (F17) and 9 with SADR Undefined. -/
theorem witness_SliceStep_faults :
    let s := withChan .gif (openChan .check 2#16)
    let u (c : Chan) := withChan c (openChan .none 0xFFFF#16)
    (s.chanOn .gif = true ∧ (s.chan .gif).phase = .running ∧ (s.chan .gif).qwc.defined = true ∧
      (s.chan .gif).madr.defined = true ∧ 2 ≤ (s.chan .gif).qwc.val.toNat ∧ (s.chan .gif).stallRole = .check ∧
      s.dStadr.defined = false) ∧
    ((u .fromSpr).chanOn .fromSpr = true ∧ ((u .fromSpr).chan .fromSpr).stallRole = .none ∧
      (u .fromSpr).sadr8.defined = false ∧ 65535 ≤ ((u .fromSpr).chan .fromSpr).qwc.val.toNat) ∧
    ((u .toSpr).chanOn .toSpr = true ∧ ((u .toSpr).chan .toSpr).stallRole = .none ∧
      (u .toSpr).sadr9.defined = false) := by decide

theorem witness_DrainNeverPassesBoundary :
    let s := { withChan .gif (openChan .check 2#16) with dStadr := ⟨0x4020#31, true⟩ }
    (s.refused = false ∧ s.faulted = false) ∧ (s.chan .gif).stallRole = .check ∧ s.dStadr.defined = true ∧
      nextIs (step (given s (.chan .gif (.slice 2)))) (fun t => t != s) = true := by decide

/-- One byte short of a quadword below the boundary; exactly a quadword below it; both with the boundary Undefined. -/
theorem witness_SuspendAndResume :
    let s := { withChan .gif (openChan .check 1#16) with dStadr := ⟨0x400F#31, true⟩ }
    let s' := { withChan .gif { openChan .check 1#16 with phase := .suspended } with dStadr := ⟨0x4010#31, true⟩ }
    (s.chanOn .gif = true ∧ (s.chan .gif).madr.defined = true ∧ s.dStadr.defined = true ∧
      (s.chan .gif).stallRole = .check ∧ (s.chan .gif).phase = .running ∧ (s.chan .gif).qwc.defined = true ∧
      0 < (s.chan .gif).qwc.val.toNat ∧ s.dStadr.val.toNat < addrOf (s.chan .gif).madr.val + 16) ∧
    (s'.chanOn .gif = true ∧ (s'.chan .gif).madr.defined = true ∧ s'.dStadr.defined = true ∧
      (s'.chan .gif).stallRole = .check ∧ (s'.chan .gif).phase = .suspended ∧
      addrOf (s'.chan .gif).madr.val + 16 * 1 ≤ s'.dStadr.val.toNat) ∧
    ({ s with dStadr := UReg.undefined 31 } : State).dStadr.defined = false ∧
    ({ s' with dStadr := UReg.undefined 31 } : State).dStadr.defined = false := by decide

/-- The last descriptor; an armed one that ends the chain (F14) and one that does not (F13); one in the middle. -/
theorem witness_DescriptorEnd :
    let s (e i : Bool) (g : Config) : State :=
      { withChan .toSpr { openChan .none 0#16 with endAfter := e, irqArmed := i } with cfg := g }
    let quiet := { Config.ps2 with cisOnCompletion := false, irqEndsChain := false }
    let ok (s : State) : Prop := s.chanOn .toSpr = true ∧ (s.chan .toSpr).phase = .running ∧
      (s.chan .toSpr).qwc = ⟨0#16, true⟩ ∧ (s.chan .toSpr).descOpen = true
    (ok (s true false Config.ps2) ∧ ((s true false Config.ps2).chan .toSpr).endAfter = true) ∧
    (ok (s true false quiet) ∧ (s true false quiet).cfg.cisOnCompletion = false) ∧
    (ok (s false true Config.ps2) ∧ (s false true Config.ps2).cfg.irqEndsChain = true) ∧
    (ok (s false true quiet) ∧ (s false true quiet).cfg.irqEndsChain = false) ∧
    (ok (s false false Config.ps2) ∧ ((s false false Config.ps2).chan .toSpr).irqArmed = false) := by decide

theorem witness_StopAndReport :
    let s (p : Phase) : State := withChan .gif { openChan .check 1#16 with phase := p, stopReq := true }
    ((s .running).chanOn .gif = true ∧ ((s .running).chan .gif).stopReq = true ∧ ((s .running).chan .gif).phase = .running) ∧
      ((s .suspended).chan .gif).phase = .suspended ∧
      ((s (.errored .stackOverflow)).chan .gif).phase = .errored .stackOverflow := by decide

/-- DMAE = 1, PCE = 1 and the channel's own CDE bit alone: enabled (F16), and no other channel is (F15). -/
theorem witness_HeldAndStoppedChannelsWait_on :
    let s : State := { State.reset with dCtrl := 1#11, dPcr := 0x82000000#32 }
    s.dCtrl.getLsbD 0 = true ∧ s.dPcr.getLsbD 31 = true ∧ s.dPcr.getLsbD (16 + Chan.toSpr.num) = true ∧
      s.chanOn .toSpr = true ∧ s.chanOn .fromSpr = false := by decide

/-- DMAE = 0; PCE = 1 with the channel's own enable 0 and every other 1; a Stopped channel. -/
theorem witness_HeldAndStoppedChannelsWait :
    Unmarked State.reset ∧ State.reset.dCtrl.getLsbD 0 = false ∧
      ((0x81FF0000#32).getLsbD 31 = true ∧ (0x81FF0000#32).getLsbD (16 + Chan.toSpr.num) = false) ∧
      (State.reset.chan .gif).phase = .stopped := ⟨unmarked_reset, by decide, by decide, by decide⟩

/-- A tag step offered to a channel that has been asked to stop. -/
theorem witness_StopRequestBlocksFetch :
    let s := given (withChan .gif { chainChan 0#32 with stopReq := true }) (.chan .gif .tagStep)
    (s.chan .gif).stopReq = true ∧ ∃ t, step s = .next t := ⟨by decide, isNext (by decide)⟩

theorem witness_EndStopsWithEmptyStack :
    let s := withChan .vif0 { chainChan 0x2000#32 with sp := 2, asr0 := ⟨0#32, true⟩, asr1 := ⟨0#32, true⟩ }
    Unmarked s ∧ s.chanOn s.mux = true ∧ (s.chan s.mux).phase = .running ∧ (fieldsAt 0#31).qwc = 0#16 ∧
      (∃ t, exec (.endTag (fieldsAt 0#31)) s = .next t) ∧ s.cfg.cisOnCompletion = true :=
  ⟨⟨rfl, rfl⟩, by decide, by decide, rfl, isNext (by decide), rfl⟩

/-- A state that meets the invariant, not the reset state: a chain in progress with both stack slots occupied. -/
def deepState : State :=
  withChan .gif { chainChan 0x2000#32 with sp := 2, asr0 := ⟨0x1010#32, true⟩, asr1 := ⟨0x3010#32, true⟩ }

theorem deepState_inv : deepState.Inv := by
  refine ⟨rfl, rfl, rfl, rfl, fun c => ?_⟩
  have h : deepState.chan c = if c = .gif
      then { chainChan 0x2000#32 with sp := 2, asr0 := ⟨0x1010#32, true⟩, asr1 := ⟨0x3010#32, true⟩ }
      else ChannelState.reset := by cases c <;> decide
  rw [h]
  split <;> constructor <;> simp [chainChan, ChannelState.reset]

/-- A tag step (the zero bytes of an empty Memory are a ReferenceEnd), and a host's stop request. -/
theorem witness_StepKeepsInvariant : deepState.Inv ∧ (∃ t, step (given deepState (.chan .gif .tagStep)) = .next t) ∧
    ∃ t, step (given deepState (.host ⟨0x1000A000#32, .w32, .write 5#32⟩)) = .next t :=
  ⟨deepState_inv, isNext (by decide), isNext (by decide)⟩

/-- A chain whose TADR was never written. -/
theorem witness_UndefinedUsesOfTheInvariant :
    let s := withChan .gif { chainChan 0#32 with tadr := ⟨0#32, false⟩ }
    Unmarked s ∧ s.Inv ∧ faultIs (step (given s (.chan .gif .tagStep))) .useOfUndefined = true := by
  refine ⟨⟨rfl, rfl⟩, ⟨rfl, rfl, rfl, rfl, fun c => ?_⟩, by decide⟩
  have h : (withChan .gif { chainChan 0#32 with tadr := ⟨0#32, false⟩ }).chan c = if c = .gif
      then { chainChan 0#32 with tadr := ⟨0#32, false⟩ } else ChannelState.reset := by cases c <;> decide
  rw [h]
  split <;> constructor <;> simp [chainChan, ChannelState.reset]

theorem witness_ChannelsAreIsolated : ∃ t, step (given { withChan .fromSpr (openChan .publish 2#16) with
    sadr8 := ⟨0x3FF0#14, true⟩ } (.chan .fromSpr (.slice 2))) = .next t := isNext (by decide)

theorem witness_ErrorsAreLocal : ErrorDone State.reset (State.reset.channelError .vif0 .stackOverflow) .vif0 .stackOverflow ∧
    Chan.vif1 ≠ .vif0 := by
  refine ⟨⟨by simp, rfl, State.channelError_stat _ _ _, fun d h => State.channelError_chan_ne _ _ h, ?_, ⟨rfl, rfl, rfl⟩,
    rfl, rfl⟩, by decide⟩
  exact ⟨rfl, rfl, rfl, rfl, fun r a => by cases r <;> rfl, rfl, rfl, rfl⟩

theorem witness_BlockWritesNoMemory :
    (∃ t, step (given lastTag (.chan .gif .tagStep)) = .next t) ∧
      ∀ r a bs, (given lastTag (.chan .gif .tagStep)).schedule.head? ≠ some (.memWrite r a bs) :=
  ⟨isNext (by decide), fun r a bs h => by cases h⟩

/-- A host write that clears BEIS (bit 15) and turns CIM0 (bit 16) on. -/
theorem witness_StatClearedOnlyByHost :
    nextIs (step (given { State.reset with dStat := 0x8000#32 } (.host ⟨0x1000E010#32, .w32, .write 0x18000#32⟩)))
      (fun t => !t.dStat.getLsbD 15 && t.dStat.getLsbD 16) = true := by decide

theorem witness_EventsOnlyGrow : ∃ t, step (given lastTag (.chan .gif .tagStep)) = .next t := isNext (by decide)

theorem witness_MemoryWriteIsSeen : Unmarked lastTag ∧ lastTag.mem.wf = true ∧ lastTag.spr.wf = true ∧
    [1#8, 2#8].length ≤ 2 ^ 31 := ⟨⟨rfl, rfl⟩, by decide, by decide, by decide⟩

/-- Three bytes written in one turn, over the end of the address space; none stays in the schedule (R43). -/
theorem test_memory_write_is_one_step :
    nextIs (step (given lastTag (.memWrite .scratchPad 0x7FFFFFFE#31 [1#8, 2#8, 3#8]))) (fun t =>
      t.readByte .scratchPad 0x7FFFFFFE == 1#8 && t.readByte .scratchPad 0x7FFFFFFF == 2#8 &&
        t.readByte .scratchPad 0 == 3#8 && t.readByte .memory 0 == 0#8 && t.schedule.isEmpty) = true := by decide

theorem witness_MarksAreSticky :
    ({ State.reset with refused := true } : State).refused = true ∧
      ({ State.reset with faulted := true } : State).faulted = true := by decide

theorem witness_FinalStateWaits : State.reset.final = true ∧ State.reset.schedule = [] := by decide

end Sys2Proof.Tests
end

section
/-! PROOFS, the state (spec/10_state.md). What a step can do to D_STAT and to the event history, operation by
operation. -/

namespace Sys2Proof.Machine

/-! ## D_STAT: what a turn can do to it (R34, R109, R143) -/

/-- D_STAT goes from `d` to `d'` with at most one raise (R108). -/
def RaisesAtMost (d d' : Word) : Prop := d' = d ∨ ∃ b, d' = statRaise d b

/-- Bit `i` of D_STAT is a status bit that is cleared, or a mask bit that is changed: what R143 leaves to the host. -/
def LosesStatBit (d d' : Word) (i : Nat) : Prop :=
  i < 16 ∧ d.getLsbD i = true ∧ d'.getLsbD i = false ∨ 16 ≤ i ∧ d'.getLsbD i ≠ d.getLsbD i

theorem RaisesAtMost.not_losesStatBit {d d' : Word} {i : Nat} (h : RaisesAtMost d d') (hi : i < 32) :
    ¬ LosesStatBit d d' i := by
  rcases h with rfl | ⟨b, rfl⟩
  · rintro (⟨-, h1, h0⟩ | ⟨-, hne⟩)
    · rw [h1] at h0; cases h0
    · exact hne rfl
  · have hpos := b.pos_range
    rintro (⟨-, h1, h0⟩ | ⟨h16, hne⟩)
    · simp [statRaise_getLsbD _ _ _ hi, h1] at h0
    · have hp : i ≠ b.pos := by omega
      simp [statRaise_getLsbD _ _ _ hi, hp] at hne

/-- R109: a host write loses a bit only where the written value has a 1. -/
theorem LosesStatBit.of_statWrite {d v : Word} {i : Nat} (hi : i < 32) (h : LosesStatBit d (statWrite d v) i) :
    v.getLsbD i = true := by
  by_contra hv
  rw [Bool.not_eq_true] at hv
  have hsame : (statWrite d v).getLsbD i = d.getLsbD i := by
    rw [statWrite_getLsbD d v i hi, hv]; simp
  rcases h with ⟨-, h1, h0⟩ | ⟨-, hne⟩
  · rw [hsame, h1] at h0; cases h0
  · exact hne hsame

/-- R74, R137: a tag raises BEIS where it is a channel error, and nothing else. -/
theorem exec_tag_dStat {k : TagKind} {f : TagFields} {s t : State} (h : exec (Instr.ofTag f k) s = .next t) :
    RaisesAtMost s.dStat t.dStat := by
  rcases exec_tag_next h with ⟨ch, rfl, -⟩ | ⟨r, rfl, -⟩
  · exact .inl rfl
  · exact .inr ⟨.beis, rfl⟩

theorem tagStep_dStat {s t : State} {c : Chan} (h : s.tagStep c = .next t) : RaisesAtMost s.dStat t.dStat := by
  rcases tagStep_next h with rfl | ⟨k, f, he⟩ | ⟨m, rfl⟩
  · exact .inr ⟨.beis, rfl⟩
  · exact (exec_tag_dStat he :)
  · exact .inr ⟨.beis, rfl⟩

theorem State.descEnd_dStat (s : State) (c : Chan) : RaisesAtMost s.dStat (s.descEnd c).dStat := by
  rw [(s.descEnd_rest c).2]
  dsimp only
  split
  · exact .inr ⟨.cis c, rfl⟩
  · exact .inl rfl

theorem State.slice_keeps_dStat_events {s t : State} {c : Chan} {n : Nat} (h : s.slice c n = .next t) :
    t.dStat = s.dStat ∧ t.events = s.events := by
  obtain ⟨-, -, -, x8, x9, ht, -⟩ := State.slice_next h
  exact ⟨(congrArg State.dStat ht :), (congrArg State.events ht :)⟩

/-- R143: a step of a channel raises one status bit at most and touches no other bit of D_STAT. -/
theorem takeStep_dStat {s t : State} {c : Chan} {k : ChanStep} (h : s.takeStep c k = .next t) :
    RaisesAtMost s.dStat t.dStat := by
  cases k with
  | slice n => exact .inl (State.slice_keeps_dStat_events h).1
  | suspend => cases h; exact .inr ⟨.sis, rfl⟩
  | resume => cases h; exact .inl rfl
  | descEnd => cases h; exact s.descEnd_dStat c
  | tagStep => exact tagStep_dStat h
  | stop => cases h; exact .inl rfl
  | report => cases h; exact .inl rfl

theorem chanTurn_dStat {s t : State} {c : Chan} {k : ChanStep} (h : s.chanTurn c k = .next t) :
    RaisesAtMost s.dStat t.dStat := by
  rcases chanTurn_next h with rfl | ⟨-, -, hk⟩
  · exact .inl rfl
  · exact takeStep_dStat hk

/-- R34, R109: a host access that changes D_STAT is a 32-bit write at D_STAT's address. -/
theorem hostTurn_dStat {s t : State} {a : HostAccess} (h : s.hostTurn a = .next t) :
    t.dStat = s.dStat ∨
      ∃ v, a = ⟨s.cfg.regs.addr .dStat, .w32, .write v⟩ ∧ t.dStat = statWrite s.dStat v := by
  obtain ⟨addr, width, kind⟩ := a
  obtain ⟨rfl, r, rfl, he⟩ := hostTurn_next h
  by_cases hd : t.dStat = s.dStat
  · exact .inl hd
  · obtain ⟨rfl, v, rfl, hv⟩ := exec_access_dStat he hd
    exact .inr ⟨v, rfl, hv⟩

/-- R143: a turn of any agent raises one status bit at most, unless it is a host write of D_STAT. -/
theorem turn_dStat {s t : State} {u : Turn} (h : s.turn u = .next t) :
    RaisesAtMost s.dStat t.dStat ∨
      ∃ v, u = .host ⟨s.cfg.regs.addr .dStat, .w32, .write v⟩ ∧ t.dStat = statWrite s.dStat v := by
  cases u with
  | chan c k => exact .inl (chanTurn_dStat h)
  | host a =>
    rcases hostTurn_dStat h with hd | ⟨v, rfl, hv⟩
    · exact .inl (.inl hd)
    · exact .inr ⟨v, rfl, hv⟩
  | busErrorIn => cases h; exact .inl (.inr ⟨.beis, rfl⟩)
  | mfifoEmptyIn => cases h; exact .inl (.inr ⟨.meis, rfl⟩)
  | memWrite r a bs => cases h; exact .inl (.inl (s.writeBytes_dStat r a bs))

/-- R143 for a step: D_STAT gains one raise at most, unless the turn taken is a host write of D_STAT. -/
theorem step_dStat {s t : State} (h : step s = .next t) :
    RaisesAtMost s.dStat t.dStat ∨
      ∃ v, s.schedule.head? = some (.host ⟨s.cfg.regs.addr .dStat, .w32, .write v⟩) ∧
        t.dStat = statWrite s.dStat v := by
  obtain ⟨-, -, ⟨u, ts, hs, hu⟩ | ⟨-, c, k, -, hk⟩ | ⟨-, -, rfl⟩⟩ := step_next h
  · rcases turn_dStat hu with hr | ⟨v, rfl, hv⟩
    · exact .inl hr
    · exact .inr ⟨v, by rw [hs]; rfl, hv⟩
  · exact .inl (chanTurn_dStat hk :)
  · exact .inl (.inl rfl)

/-- Settles O56: a raise loses no bit, so the turn was a host write of D_STAT, which loses a bit only where it writes
a 1. -/
theorem statClearedOnlyByHost : Obligations.StatClearedOnlyByHost := by
  intro s t i hi h hlost
  rcases step_dStat h with hr | ⟨v, hv, ht⟩
  · exact absurd hlost (hr.not_losesStatBit hi)
  · rw [ht] at hlost
    exact ⟨_, v, hv, rfl, LosesStatBit.of_statWrite hi hlost⟩

/-! ## The event history (R31) -/

theorem AccessDone.events {s t : State} (h : AccessDone s t) : t.events = s.events := by
  cases h with
  | channel c x h _ => rw [h]; rfl
  | _ => subst t; rfl

theorem exec_tag_events {k : TagKind} {f : TagFields} {s t : State} (h : exec (Instr.ofTag f k) s = .next t) :
    s.events <+: t.events := by
  rcases exec_tag_next h with ⟨ch, rfl, -⟩ | ⟨r, rfl, -⟩
  · exact List.prefix_append _ _
  · exact List.prefix_rfl

/-- R37: the fetch appends its own event before the tag's meaning runs. -/
theorem State.fetched_events (s : State) (c : Chan) : s.events <+: (s.fetched c).events := List.prefix_append _ _

theorem tagStep_events {s t : State} {c : Chan} (h : s.tagStep c = .next t) : s.events <+: t.events := by
  rcases tagStep_next h with rfl | ⟨k, f, he⟩ | ⟨m, rfl⟩
  · exact List.prefix_rfl
  · exact (s.fetched_events c).trans (exec_tag_events he)
  · exact s.fetched_events c

theorem takeStep_events {s t : State} {c : Chan} {k : ChanStep} (h : s.takeStep c k = .next t) :
    s.events <+: t.events := by
  cases k with
  | slice n => rw [(State.slice_keeps_dStat_events h).2]
  | descEnd => cases h; rw [(s.descEnd_rest c).2]
  | tagStep => exact tagStep_events h
  | _ => cases h; exact List.prefix_rfl

theorem chanTurn_events {s t : State} {c : Chan} {k : ChanStep} (h : s.chanTurn c k = .next t) :
    s.events <+: t.events := by
  rcases chanTurn_next h with rfl | ⟨-, -, hk⟩
  · exact List.prefix_rfl
  · exact takeStep_events hk

/-- R31 for a turn of any agent: only a channel's step appends to the event history. -/
theorem turn_events {s t : State} {u : Turn} (h : s.turn u = .next t) : s.events <+: t.events := by
  cases u with
  | chan c k => exact chanTurn_events h
  | host a =>
    obtain ⟨-, r, -, he⟩ := hostTurn_next h
    rw [(exec_access_next he).events]
  | busErrorIn => cases h; exact List.prefix_rfl
  | mfifoEmptyIn => cases h; exact List.prefix_rfl
  | memWrite r a bs => cases h; rw [s.writeBytes_events r a bs]

theorem step_events {s t : State} (h : step s = .next t) : s.events <+: t.events := by
  obtain ⟨-, -, ⟨u, ts, -, hu⟩ | ⟨-, c, k, -, hk⟩ | ⟨-, -, rfl⟩⟩ := step_next h
  · exact (turn_events hu :)
  · exact (chanTurn_events hk :)
  · exact List.prefix_rfl

/-- Settles O57, by what each agent's turn does to the event history. -/
theorem eventsOnlyGrow : Obligations.EventsOnlyGrow := by
  intro s t h
  obtain ⟨es, hes⟩ := step_events h
  exact ⟨es, hes.symm⟩

/-! ## The tag-fetch region (R20) -/

theorem State.finishTag_tadr (s : State) (c : Chan) (k : TagKind) (f : TagFields) (ch : ChannelState) :
    ((s.finishTag c k f ch).chan c).tadr = ch.tadr := by rw [State.finishTag_chan_self]

theorem State.channelError_tadr (s : State) (c : Chan) (r : ErrorReason) :
    ((s.channelError c r).chan c).tadr = (s.chan c).tadr := by rw [State.channelError_chan_self]

/-- Settles O17, kind by kind: each of the eight keeps TADR or sets it by `sameRegion`, which keeps bit 31. -/
theorem onlyReturnMovesTagRegion : Obligations.OnlyReturnMovesTagRegion := by
  intro k f s t hk h
  cases k with
  | return_ => exact absurd rfl hk
  | referenceEnd | end_ => cases h; rw [State.finishTag_tadr]
  | continueStall | continue_ | next | reference | referenceStall =>
    cases h
    rw [State.finishTag_tadr]
    exact sameRegion_getLsbD_31 _ _
  | call =>
    simp only [Instr.ofTag, exec, execCall] at h
    split at h
    · cases h
      rw [State.channelError_tadr]
    · cases h
      rw [State.finishTag_tadr]
      exact sameRegion_getLsbD_31 _ _

/-! ## Which Undefined registers a channel's turn can use (R33, R141) -/

/-- A step whose next turn is given takes that turn. -/
theorem step_given {s : State} (h : Claims.Unmarked s) (u : Turn) : step (Claims.given s u) = s.turn u :=
  step_scheduled h.1 h.2 rfl

/-- R85, R116: a channel's turn stops in asking whether its step is enabled, or in the enabled step. -/
theorem chanTurn_fault {s : State} {c : Chan} {k : ChanStep} {e : Fault} (h : s.chanTurn c k = .fault e) :
    s.stepReady c k = none ∨ (s.stepReady c k = some true ∧ s.takeStep c k = .fault e) := by
  unfold State.chanTurn at h
  split at h
  · split at h
    · next hr => exact .inl hr
    · cases h
    · next hr => exact .inr ⟨hr, h⟩
  · cases h

/-- R33, R88: a slice stops on an Undefined MADR or SADR. -/
theorem State.slice_fault {s : State} {c : Chan} {n : Nat} {e : Fault} (h : s.slice c n = .fault e) :
    (s.chan c).madr.defined = false ∨ s.advanceSadr c n = none := by
  unfold State.slice at h
  simp only at h
  split at h
  · next hm => exact .inl (by simpa using hm)
  · split at h
    · next hs => exact .inr hs
    · cases h

/-- R33, R91, R102: a tag step stops as `useOfUndefined` on an Undefined TADR, or on a Return that pops an Undefined
slot. -/
theorem tagStep_useOfUndefined {s : State} {c : Chan} (h : s.tagStep c = .fault .useOfUndefined) :
    (s.chan c).tadr.defined = false ∨ ((s.chan c).sp ≠ 0 ∧ (s.chan c).topSlot.defined = false) := by
  unfold State.tagStep at h
  simp only at h
  split at h
  · next ht => exact .inl (by simpa using ht)
  · split at h
    · cases h
    · split at h
      · cases h
      · split at h
        · next i hi =>
          obtain ⟨k, f, rfl⟩ := decodeRaw_ok hi
          obtain ⟨-, -, hsp, htop⟩ := exec_tag_fault h
          exact .inr ⟨hsp, htop⟩
        · cases h

/-- R102: under the invariant the slot that a pop reads is written. -/
theorem ChannelState.Inv.topSlot_defined {ch : ChannelState} (h : ch.Inv) (h0 : ch.sp ≠ 0) :
    ch.topSlot.defined = true :=
  ChannelState.topSlot_defined h0 h.slots.2 fun _ => h.slots.1 h0

/-- R87, R26: under the invariant an active channel with quadwords left has its MADR. -/
theorem ChannelState.Inv.madr_defined {ch : ChannelState} (h : ch.Inv) (hp : ch.phase ≠ .stopped)
    (hq : ch.qwc.val ≠ 0#16) : ch.madr.defined = true :=
  ((h.ready hp).2 hq).1

/-- R122: under the invariant the question whether a step is enabled can use only an Undefined D_STADR. -/
theorem stepReady_eq_none_of_inv {s : State} {c : Chan} {k : ChanStep} (hc : (s.chan c).Inv)
    (h : s.stepReady c k = none) : (s.chan c).stallRole = .check ∧ s.dStadr.defined = false := by
  rcases s.stepReady_eq_none c h with ⟨hp, hq⟩ | ⟨hp, hrole, hd | hm⟩
  · have := (hc.ready (by simp [hp])).1
    rw [hq] at this; cases this
  · exact ⟨hrole, hd⟩
  · have hmadr : (s.chan c).madr.defined = true := by
      rcases hp with hp | ⟨hp, hq⟩
      · exact hc.madr_defined (by simp [hp]) (hc.held hp).2
      · exact hc.madr_defined (by simp [hp]) hq
    rw [hm] at hmadr; cases hmadr

/-- An enabled slice stops only on an Undefined SADR where the invariant holds of its channel. -/
theorem slice_fault_of_inv {s : State} {c : Chan} {n : Nat} {e : Fault} (hc : (s.chan c).Inv)
    (hr : s.stepReady c (.slice n) = some true) (h : s.slice c n = .fault e) :
    c = .fromSpr ∧ s.sadr8.defined = false ∨ c = .toSpr ∧ s.sadr9.defined = false := by
  rcases State.slice_fault h with hm | hs
  · obtain ⟨hp, -, hn, hle, -⟩ := (s.stepReady_slice c).1 hr
    have hq : (s.chan c).qwc.val ≠ 0#16 := by
      intro hz
      rw [hz, BitVec.toNat_zero] at hle
      omega
    have := hc.madr_defined (by simp [hp]) hq
    rw [hm] at this; cases this
  · exact State.advanceSadr_eq_none.1 hs

/-- Settles O52: the question whether the step is enabled, the slice and the tag step are the only uses, and the
invariant rules out QWC, MADR and the stack slots in each. -/
theorem undefinedUsesOfTheInvariant : Obligations.UndefinedUsesOfTheInvariant := by
  intro s c k hu hinv h
  rw [step_given hu] at h
  have hc := hinv.chan c
  rcases chanTurn_fault h with hr | ⟨hr, hk⟩
  · exact .inr (.inr (stepReady_eq_none_of_inv hc hr))
  · cases k with
    | slice n => exact .inr (.inl ⟨⟨n, rfl⟩, slice_fault_of_inv hc hr hk⟩)
    | tagStep =>
      rcases tagStep_useOfUndefined hk with ht | ⟨hsp, htop⟩
      · exact .inl ⟨rfl, ht⟩
      · rw [hc.topSlot_defined hsp] at htop; cases htop
    | _ => cases hk

/-! ## The marks (R32, R119) -/

theorem step_refused {s : State} (h : s.refused = true) : step s = .refused .alreadyRefused := if_pos h

theorem step_faulted {s : State} (hr : s.refused = false) (h : s.faulted = true) :
    step s = .fault .alreadyFaulted := by
  simp [step, hr, h]

/-- R32: the state after a step that the mark `refused` stops. -/
theorem State.after_refused {s : State} (h : s.refused = true) : s.after = { s with refused := true } := by
  rw [State.after, step_refused h]

/-- R32: the state after a step that the mark `faulted` stops. -/
theorem State.after_faulted {s : State} (hr : s.refused = false) (h : s.faulted = true) :
    s.after = { s with faulted := true } := by
  rw [State.after, step_faulted hr h]

/-- Settles O59: `step` asks for the marks before anything else, `refused` first. -/
theorem marksAreSticky : Obligations.MarksAreSticky := by
  intro s hmark
  have hfinal : s.final = false := by
    rcases hmark with h | h <;> simp [State.final, h]
  cases hr : s.refused with
  | true =>
    refine ⟨fun t => ?_, fun _ => ?_, fun hf => ?_, hfinal⟩
    · rw [step_refused hr]; exact nofun
    · rw [State.after_refused hr]
    · rw [State.after_refused hr]; exact hf
  | false =>
    have hf : s.faulted = true := hmark.resolve_left (by simp [hr])
    refine ⟨fun t => ?_, nofun, fun _ => ?_, hfinal⟩
    · rw [step_faulted hr hf]; exact nofun
    · rw [State.after_faulted hr hf]

end Sys2Proof.Machine
end

section
/-! PROOFS, memory (spec/20_memory.md). What a step can do to the two memories: only a write of another agent changes
them, and it is one step. -/

namespace Sys2Proof.Machine

/-! ## The block writes no memory (R48) -/

theorem AccessDone.memory {s t : State} (h : AccessDone s t) : t.memory = s.memory := by
  cases h with
  | channel c x h _ => rw [h]; rfl
  | _ => subst t; rfl

theorem exec_tag_memory {k : TagKind} {f : TagFields} {s t : State} (h : exec (Instr.ofTag f k) s = .next t) :
    t.memory = s.memory := by
  rcases exec_tag_next h with ⟨ch, rfl, -⟩ | ⟨r, rfl, -⟩
  · rfl
  · rfl

/-- R40, R91: a tag step reads memory and writes none, in its errors too. -/
theorem tagStep_memory {s t : State} {c : Chan} (h : s.tagStep c = .next t) : t.memory = s.memory := by
  rcases tagStep_next h with rfl | ⟨k, f, he⟩ | ⟨m, rfl⟩
  · rfl
  · exact (exec_tag_memory he :)
  · rfl

/-- R48: a slice moves addresses and counts and no data. -/
theorem State.slice_memory {s t : State} {c : Chan} {n : Nat} (h : s.slice c n = .next t) :
    t.memory = s.memory := by
  obtain ⟨-, -, -, x8, x9, ht, -⟩ := State.slice_next h
  exact (congrArg State.memory ht :)

theorem State.descEnd_memory (s : State) (c : Chan) : (s.descEnd c).memory = s.memory := by
  rw [(s.descEnd_rest c).2]
  rfl

theorem takeStep_memory {s t : State} {c : Chan} {k : ChanStep} (h : s.takeStep c k = .next t) :
    t.memory = s.memory := by
  cases k with
  | slice n => exact State.slice_memory h
  | descEnd => cases h; exact s.descEnd_memory c
  | tagStep => exact tagStep_memory h
  | suspend | resume | stop | report => cases h; rfl

theorem chanTurn_memory {s t : State} {c : Chan} {k : ChanStep} (h : s.chanTurn c k = .next t) :
    t.memory = s.memory := by
  rcases chanTurn_next h with rfl | ⟨-, -, hk⟩
  · rfl
  · exact takeStep_memory hk

/-- R48 for a turn of any agent: a turn that is not a write of memory leaves both memories as they were. -/
theorem turn_memory {s t : State} {u : Turn} (h : s.turn u = .next t) (hu : ∀ r a bs, u ≠ .memWrite r a bs) :
    t.memory = s.memory := by
  cases u with
  | chan c k => exact chanTurn_memory h
  | host a =>
    obtain ⟨-, r, -, he⟩ := hostTurn_next h
    exact (exec_access_next he).memory
  | busErrorIn => cases h; rfl
  | mfifoEmptyIn => cases h; rfl
  | memWrite r a bs => exact absurd rfl (hu r a bs)

/-- R48 for a step: the multiplexer's own choice is a channel's step, so only the schedule can give a write of
memory. -/
theorem step_memory {s t : State} (h : step s = .next t)
    (hs : ∀ r a bs, s.schedule.head? ≠ some (.memWrite r a bs)) : t.memory = s.memory := by
  obtain ⟨-, -, ⟨u, ts, hsched, hu⟩ | ⟨-, c, k, -, hk⟩ | ⟨-, -, rfl⟩⟩ := step_next h
  · refine (turn_memory hu fun r a bs hw => hs r a bs ?_ :)
    rw [hsched, hw]
    rfl
  · exact (chanTurn_memory hk :)
  · rfl

theorem sameBytes_of_memory_eq {s t : State} (h : t.memory = s.memory) : Claims.SameBytes s t := by
  intro r a
  rw [State.readByte, State.readByte, h]

/-- Settles O55, by what each agent's turn does to the two memories. -/
theorem blockWritesNoMemory : Obligations.BlockWritesNoMemory := by
  intro s t h hs
  exact sameBytes_of_memory_eq (step_memory h hs)

/-! ## A write of another agent (R43, R46) -/

/-- R43: a write of memory by another agent, however long, is one step. -/
theorem step_given_memWrite {s : State} (h : Claims.Unmarked s) (r : Region) (a : BitVec 31) (bs : List Byte) :
    step (Claims.given s (.memWrite r a bs)) = .next (s.writeBytes r a bs) :=
  step_given h _

/-- Settles O58, by the memory's own laws: the canonical form and the bound on the length serve only the bytes read
back. -/
theorem memoryWriteIsSeen : Obligations.MemoryWriteIsSeen := by
  intro s r a bs hu hm hs hlen
  refine ⟨s.writeBytes r a bs, step_given_memWrite hu r a bs, fun i hi => ?written, fun q x hout => ?kept, ?rest⟩
  case written => exact s.readByte_writeBytes hm hs r a bs hlen i hi
  case kept => exact s.readByte_writeBytes_ne r q a bs x hout
  case rest => exact s.writeBytes_eq r a bs

end Sys2Proof.Machine
end

section
/-! PROOFS, encoding (spec/30_encoding.md). The decoder on a tag's 128 bits, on its bytes and on a host access, and from
these the round trip. -/

namespace Sys2Proof

/-! ## Tags (R50, R60, R69) -/

/-- The operands that stand in a tag's 128 bits, by the layout of R50. -/
def tagOperands (raw : BitVec 128) : TagFields where
  qwc := raw.extractLsb' 0 16
  rsv := raw.extractLsb' 16 10
  pce := raw.extractLsb' 26 2
  irq := raw.getLsbD 31
  addr := raw.extractLsb' 32 31
  spr := raw.getLsbD 63

theorem tagOperands_encodeFields (k : TagKind) (f : TagFields) : tagOperands (encodeFields k f) = f := by
  simp only [tagOperands, encodeFields_qwc, encodeFields_rsv, encodeFields_pce, encodeFields_irq, encodeFields_addr,
    encodeFields_spr]

theorem decodeTag_eq_ok {raw : BitVec 128} {dir : Direction} {tte : Bool} {k : TagKind}
    (hk : kindOf (raw.extractLsb' 28 3) dir = some k) (ha : addrLegal (tagOperands raw).addr tte = true) :
    decodeTag raw dir tte = .ok ⟨(tagOperands raw).qwc, (tagOperands raw).pce, k, (tagOperands raw).irq,
      (tagOperands raw).addr, (tagOperands raw).spr⟩ := by
  have aligned : (tte && (raw.extractLsb' 32 31).extractLsb' 0 4 != 0#4) = false := by
    cases tte with
    | false => rfl
    | true => simpa [addrLegal, tagOperands] using ha
  simp [decodeTag, hk, aligned, tagOperands]

theorem decodeRaw_eq_ok {raw : BitVec 128} {dir : Direction} {tte : Bool} {k : TagKind}
    (hk : kindOf (raw.extractLsb' 28 3) dir = some k) (ha : addrLegal (tagOperands raw).addr tte = true) :
    decodeRaw raw dir tte = .ok (Instr.ofTag (tagOperands raw) k) := by
  rw [decodeRaw, decodeTag_eq_ok hk ha]
  rfl

/-- R69 for the instruction: a kind that is legal for the direction, with a legal address, is decoded back from the
128 bits, raw[25:16] included. -/
theorem decodeRaw_encodeFields {k : TagKind} {f : TagFields} {dir : Direction} {tte : Bool}
    (hk : k.legalFor dir = true) (ha : addrLegal f.addr tte = true) :
    decodeRaw (encodeFields k f) dir tte = .ok (Instr.ofTag f k) := by
  have hkind : kindOf ((encodeFields k f).extractLsb' 28 3) dir = some k := by
    rw [encodeFields_id, kindOf_code hk]
  have haddr : addrLegal (tagOperands (encodeFields k f)).addr tte = true := by
    rw [tagOperands_encodeFields, ha]
  rw [decodeRaw_eq_ok hkind haddr, tagOperands_encodeFields]

/-- R38: decoding the 16 bytes of a tag is decoding its 128 bits. -/
theorem decodeTagBytes_bytesOfRaw {raw : BitVec 128} {dir : Direction} {tte : Bool} {i : Instr}
    (h : decodeRaw raw dir tte = .ok i) : decodeTagBytes (bytesOfRaw raw) dir tte = .ok i := by
  rw [decodeTagBytes, if_pos (bytesOfRaw_length raw), rawOfBytes_bytesOfRaw, h]

/-! ## Host accesses (R118, R126) -/

/-- R118: where no two registers share an address, the address of a register leads back to it. -/
theorem find_addr {g : Config} (hinj : ∀ r q, g.regs.addr r = g.regs.addr q → r = q) {r : RegName}
    (hr : g.hasReg r = true) : g.find (g.regs.addr r) = some r := by
  cases hfind : g.find (g.regs.addr r) with
  | none => exact absurd rfl (find_eq_none.1 hfind r hr)
  | some q => rw [hinj q r (addr_of_find hfind)]

theorem decodeAccess_eq_ok {g : Config} {addr : Word} {r : RegName} (a : AccessKind) (ha : addr.toNat % 4 = 0)
    (hr : g.find addr = some r) : decodeAccess g ⟨addr, .w32, a⟩ = .ok (Instr.ofAccess r a) := by
  rw [decodeAccess, if_pos ⟨rfl, (Machine.accessAligned_iff addr).2 ha⟩]
  simp only [hr]

/-! ## Instructions -/

theorem wellFormed_ofTag (k : TagKind) (f : TagFields) (dir : Direction) (tte : Bool) :
    (Instr.ofTag f k).wellFormed dir tte = (k.legalFor dir && addrLegal f.addr tte) := by
  rw [Instr.wellFormed, operation_ofTag]

theorem encode_ofTag (m : RegBase) (k : TagKind) (f : TagFields) :
    encode m (Instr.ofTag f k) = .tag (bytesOfRaw (encodeFields k f)) := by
  rw [encode, operation_ofTag]

theorem encode_ofAccess (m : RegBase) (r : RegName) (a : AccessKind) :
    encode m (Instr.ofAccess r a) = .access ⟨m.addr r, .w32, a⟩ := by
  rw [encode, operation_ofAccess]

theorem decode_encode_ofTag (g : Config) {k : TagKind} {f : TagFields} {dir : Direction} {tte : Bool}
    (h : (Instr.ofTag f k).wellFormed dir tte = true) :
    decode g dir tte (encode g.regs (Instr.ofTag f k)) = .ok (Instr.ofTag f k) := by
  rw [wellFormed_ofTag, Bool.and_eq_true] at h
  obtain ⟨hk, ha⟩ := h
  rw [encode_ofTag]
  exact decodeTagBytes_bytesOfRaw (decodeRaw_encodeFields hk ha)

theorem decode_encode_ofAccess {g : Config} (hinj : ∀ r q, g.regs.addr r = g.regs.addr q → r = q) {r : RegName}
    (hr : g.hasReg r = true) (haddr : (g.regs.addr r).toNat % 4 = 0) (a : AccessKind) (dir : Direction) (tte : Bool) :
    decode g dir tte (encode g.regs (Instr.ofAccess r a)) = .ok (Instr.ofAccess r a) := by
  rw [encode_ofAccess, decode, decodeAccess_eq_ok a haddr (find_addr hinj hr)]

/-- Settles O1: an instruction is a tag of some kind or an access to some register, and each form has its own round
trip. -/
theorem decodeInvertsEncode : Obligations.DecodeInvertsEncode := by
  intro g i dir tte hnch hinj halign hwf
  obtain ⟨o, rfl⟩ : ∃ o, i = Instr.ofOperation o := ⟨i.operation, (ofOperation_operation i).symm⟩
  cases o with
  | tag k f => exact decode_encode_ofTag g hwf
  | access r a => exact decode_encode_ofAccess hinj (hasReg_of_nch hnch r) (halign r) a dir tte

/-- Settles O5: the kind code and the operands of each tag word are read off by the layout of R50, the register of
each access by the addresses of R15. -/
theorem writtenWordsDecode : Obligations.WrittenWordsDecode := by
  refine ⟨?next, ?cnts, ?call, ?sadr9, ?tadr6⟩
  case next => exact decodeRaw_eq_ok (k := .next) rfl rfl
  case cnts => exact decodeRaw_eq_ok (k := .continueStall) rfl rfl
  case call => exact decodeRaw_eq_ok (k := .call) rfl rfl
  case sadr9 => exact decodeAccess_eq_ok (r := .sadr9) _ rfl (by decide)
  case tadr6 => exact decodeAccess_eq_ok (r := .chan .sif1 .tadr) _ rfl (by decide)

end Sys2Proof
end

section
/-! PROOFS, the tag decoder (spec/40_tag_decoder.md). What the decoder answers on any 128 bits, said once: a kind that
the direction allows, the fields of R50, and the alignment check of R67 as the only way to fail. -/

namespace Sys2Proof

/-! ## The decoder's answer (R60, R67) -/

/-- The tag of kind `k` whose other fields stand in `raw`, by the layout of R50. -/
def tagInRaw (k : TagKind) (raw : BitVec 128) : DmaTag :=
  ⟨(tagOperands raw).qwc, (tagOperands raw).pce, k, (tagOperands raw).irq, (tagOperands raw).addr, (tagOperands raw).spr⟩

theorem decodeTag_eq_misaligned {raw : BitVec 128} {dir : Direction} {tte : Bool} {k : TagKind}
    (hk : kindOf (raw.extractLsb' 28 3) dir = some k) (ha : addrLegal (tagInRaw k raw).addr tte = false) :
    decodeTag raw dir tte = .error .misaligned := by
  have misaligned : (tte && (raw.extractLsb' 32 31).extractLsb' 0 4 != 0#4) = true := by
    cases tte with
    | false => cases ha
    | true => simpa [addrLegal, tagInRaw, tagOperands] using ha
  simp [decodeTag, hk, misaligned]

/-- R60: the alignment check decides between the tag and the error. -/
theorem decodeTag_of_kindOf {raw : BitVec 128} {dir : Direction} {k : TagKind} (tte : Bool)
    (hk : kindOf (raw.extractLsb' 28 3) dir = some k) :
    decodeTag raw dir tte =
      if addrLegal (tagInRaw k raw).addr tte then .ok (tagInRaw k raw) else .error .misaligned := by
  split
  · next ha => exact decodeTag_eq_ok hk ha
  · next ha => exact decodeTag_eq_misaligned hk (Bool.eq_false_of_not_eq_true ha)

/-- A tag that the decoder answers stands in `raw`, the code of its kind too. -/
theorem decodeTag_ok {raw : BitVec 128} {dir : Direction} {tte : Bool} {t : DmaTag}
    (h : decodeTag raw dir tte = .ok t) : ∃ k, k.code = raw.extractLsb' 28 3 ∧ t = tagInRaw k raw := by
  obtain ⟨k, hk, -, hcode⟩ := kindOf_eq_some (raw.extractLsb' 28 3) dir
  rw [decodeTag_of_kindOf tte hk] at h
  split at h
  · cases h; exact ⟨k, hcode, rfl⟩
  · cases h

/-- R67: the address that stands in bits 62:32 is refused where its low four bits are not zero and TTE = 1. -/
theorem addrLegal_tagInRaw_eq_false (k : TagKind) (raw : BitVec 128) (tte : Bool) :
    addrLegal (tagInRaw k raw).addr tte = false ↔ tte = true ∧ raw.toNat / 2 ^ 32 % 16 ≠ 0 := by
  have low : ((raw.extractLsb' 32 31).extractLsb' 0 4).toNat = raw.toNat / 2 ^ 32 % 16 := by
    simp only [BitVec.extractLsb'_toNat, Nat.shiftRight_eq_div_pow]
    omega
  cases tte with
  | false => simp [addrLegal]
  | true => simp [addrLegal, tagInRaw, tagOperands, ← BitVec.toNat_inj, low]

/-! ## The encoder on a decoded tag (R54, R69) -/

/-- R54: the encoder is that of the operands with raw[25:16] zero. -/
theorem encodeTag_eq_encodeFields (t : DmaTag) : encodeTag t = encodeFields t.kind (t.fields 0#10) := by
  rw [encodeFields, DmaTag.fields, BitVec.setWidth_zero, BitVec.zero_shiftLeft, BitVec.or_zero]

/-- R69, first half: encoding what stands in `raw` gives its bits back, the reserved ones as zero. -/
theorem encodeTag_tagInRaw_getLsbD {k : TagKind} {raw : BitVec 128} (hcode : k.code = raw.extractLsb' 28 3) (i : Nat) :
    (encodeTag (tagInRaw k raw)).getLsbD i = (raw.getLsbD i && decide (i < 16 ∨ 26 ≤ i ∧ i < 64)) := by
  rw [encodeTag_eq_encodeFields, encodeFields_getLsbD]
  simp only [tagInRaw, tagOperands, DmaTag.fields, hcode, BitVec.getLsbD_extractLsb', BitVec.getLsbD_zero]
  split_ifs <;> grind

/-- R69, second half: a tag that is legal for the direction and TTE is decoded back. -/
theorem decodeTag_encodeTag {t : DmaTag} {dir : Direction} {tte : Bool} (h : t.wellFormed dir tte = true) :
    decodeTag (encodeTag t) dir tte = .ok t := by
  rw [DmaTag.wellFormed, Bool.and_eq_true] at h
  obtain ⟨hk, ha⟩ := h
  have kind : kindOf ((encodeTag t).extractLsb' 28 3) dir = some t.kind := by
    rw [encodeTag_eq_encodeFields, encodeFields_id, kindOf_code hk]
  have view : tagInRaw t.kind (encodeTag t) = t := by
    rw [tagInRaw, encodeTag_eq_encodeFields, tagOperands_encodeFields]
    rfl
  rw [decodeTag_of_kindOf tte kind, view, if_pos ha]

/-- Settles O2: a decoded tag stands in `raw` bit by bit, and an encoded tag's fields are read back one by one. -/
theorem tagRoundTrip : Obligations.TagRoundTrip := by
  refine ⟨fun raw dir tte t h i => ?encodeDecode, fun t dir tte h => ?decodeEncode⟩
  case encodeDecode =>
    obtain ⟨k, hcode, rfl⟩ := decodeTag_ok h
    exact encodeTag_tagInRaw_getLsbD hcode i
  case decodeEncode => exact decodeTag_encodeTag h

/-! ## What the decoder reads (R67, R68) -/

/-- The decoder reads the kind code and the fields of R50, and nothing else. -/
theorem decodeTag_congr {raw raw' : BitVec 128} (hid : raw.extractLsb' 28 3 = raw'.extractLsb' 28 3)
    (ht : ∀ k, tagInRaw k raw = tagInRaw k raw') (dir : Direction) (tte : Bool) :
    decodeTag raw dir tte = decodeTag raw' dir tte := by
  obtain ⟨k, hk, -, -⟩ := kindOf_eq_some (raw.extractLsb' 28 3) dir
  rw [decodeTag_of_kindOf tte hk, decodeTag_of_kindOf tte (hid ▸ hk), ht k]

theorem extractLsb'_eq_of_getLsbD {w : Nat} {x y : BitVec w} {start len : Nat}
    (h : ∀ i, start ≤ i → i < start + len → x.getLsbD i = y.getLsbD i) :
    x.extractLsb' start len = y.extractLsb' start len := by
  apply BitVec.eq_of_getLsbD_eq
  intro i hi
  rw [BitVec.getLsbD_extractLsb', BitVec.getLsbD_extractLsb', h (start + i) (by omega) (by omega)]

/-- Settles O3: every field that the decoder reads lies outside bits 25:16 and 127:64. -/
theorem decoderIgnoresReservedBits : Obligations.DecoderIgnoresReservedBits := by
  intro raw raw' dir tte h
  have field (start len : Nat) (hin : start + len ≤ 16 ∨ 26 ≤ start ∧ start + len ≤ 64) :
      raw.extractLsb' start len = raw'.extractLsb' start len :=
    extractLsb'_eq_of_getLsbD fun i _ _ => h i (by omega)
  refine decodeTag_congr (field 28 3 (by omega)) (fun k => ?_) dir tte
  simp only [tagInRaw, tagOperands, field 0 16 (by omega), field 26 2 (by omega), field 32 31 (by omega),
    h 31 (by omega), h 63 (by omega)]

/-- Settles O4: every 3-bit code has a kind in either direction (R64), so the alignment check is the only cause. -/
theorem decoderFailsOnlyOnAlignment : Obligations.DecoderFailsOnlyOnAlignment := by
  intro raw dir tte m
  obtain ⟨k, hk, -, -⟩ := kindOf_eq_some (raw.extractLsb' 28 3) dir
  rw [decodeTag_of_kindOf tte hk, ← addrLegal_tagInRaw_eq_false k]
  cases addrLegal (tagInRaw k raw).addr tte with
  | true => simp
  | false => simp [eq_comm]

end Sys2Proof
end

section
/-! PROOFS, the tag kinds (spec/41_tag_kinds.md, spec/43_address_stack.md). The model's address helpers as the numbers of
the statements, the frame of a tag's end and of a channel error, and from these the transition of each kind. -/

namespace Sys2Proof.Machine

open Sys2Proof.Claims

/-! ## Addresses as numbers (R70, R71) -/

theorem regionAddr_eq_atRegion (b : Bool) {a : BitVec 31} {n : Nat} (h : a.toNat = n % 2 ^ 31) :
    regionAddr b a = atRegion b n := by
  apply BitVec.eq_of_toNat_eq
  have fits : (if b then 2 ^ 31 else 0) + n % 2 ^ 31 < 2 ^ 32 := by split <;> omega
  rw [regionAddr_toNat, atRegion, BitVec.toNat_ofNat, Nat.mod_eq_of_lt fits, h]

theorem dataAddr_addr (f : TagFields) : dataAddr f f.addr = atRegion f.spr f.addr.toNat :=
  regionAddr_eq_atRegion _ (Nat.mod_eq_of_lt f.addr.isLt).symm

theorem dataAddr_afterTag (f : TagFields) (t : Word) : dataAddr f (afterTag t) = atRegion f.spr (nextTag t) :=
  regionAddr_eq_atRegion _ (afterTag_toNat t)

theorem sameRegion_eq_atRegion {t : Word} {a : BitVec 31} {n : Nat} (h : a.toNat = n % 2 ^ 31) :
    sameRegion t a = atRegion (regOf t) n := by
  rw [sameRegion, regionAddr_eq_atRegion _ h, regionBit_eq_decide, regOf]

theorem sameRegion_addr (t : Word) (a : BitVec 31) : sameRegion t a = atRegion (regOf t) a.toNat :=
  sameRegion_eq_atRegion (Nat.mod_eq_of_lt a.isLt).symm

theorem sameRegion_afterTag (t : Word) : sameRegion t (afterTag t) = atRegion (regOf t) (nextTag t) :=
  sameRegion_eq_atRegion (afterTag_toNat t)

theorem sameRegion_afterData (t : Word) (q : BitVec 16) :
    sameRegion t (afterData t q) = atRegion (regOf t) (nextData t q) :=
  sameRegion_eq_atRegion (afterData_toNat t q)

/-! ## The stall roles (R120) -/

theorem isSource_iff (d : BitVec 11) (c : Chan) : isSource d c = true ↔ stallSource d = some c := by
  rw [isSource, decide_eq_true_iff, stallSource_eq_some]

theorem isDrain_iff (d : BitVec 11) (c : Chan) : isDrain d c = true ↔ stallDrain d = some c := by
  rw [isDrain, decide_eq_true_iff, stallDrain_eq_some]

/-! ## The end of a tag and a channel error, with their frames (R72, R137) -/

theorem State.finishTag_onlyChannel (s : State) (c : Chan) (k : TagKind) (f : TagFields) (ch : ChannelState) :
    OnlyChannel c s (s.finishTag c k f ch) where
  others _ h := s.finishTag_chan_ne k f ch h
  control := ⟨rfl, rfl, rfl, rfl, s.finishTag_readByte c k f ch, rfl, rfl, rfl⟩
  addresses := ⟨rfl, rfl, rfl⟩
  mux := rfl
  hostData := rfl

theorem State.channelError_onlyChannel (s : State) (c : Chan) (r : ErrorReason) :
    OnlyChannel c s (s.channelError c r) where
  others _ h := s.channelError_chan_ne r h
  control := ⟨rfl, rfl, rfl, rfl, s.channelError_readByte c r, rfl, rfl, rfl⟩
  addresses := ⟨rfl, rfl, rfl⟩
  mux := rfl
  hostData := rfl

/-- R72, R73: the end of a tag's transition is what `TagDone` says over the kind's own writes. -/
theorem State.finishTag_tagDone (s : State) (k : TagKind) (f : TagFields) (ch : ChannelState) :
    TagDone s (s.finishTag s.mux k f ch) k f ch where
  channel := s.finishTag_channel s.mux k f ch
  hint := s.finishTag_events s.mux k f ch
  stat := s.finishTag_dStat s.mux k f ch
  rest := s.finishTag_onlyChannel s.mux k f ch

/-- R137: the entry of a channel error is what `ErrorDone` says. -/
theorem State.channelError_errorDone (s : State) (c : Chan) (r : ErrorReason) :
    ErrorDone s (s.channelError c r) c r where
  channel := s.channelError_chan_self c r
  events := s.channelError_events c r
  stat := s.channelError_stat c r
  rest := s.channelError_onlyChannel c r

/-- A tag whose meaning ends by R72 over `ch` makes the transition that `TagDone` says. -/
theorem exec_tagDone {i : Instr} {s : State} {k : TagKind} {f : TagFields} {ch : ChannelState}
    (h : exec i s = .next (s.finishTag s.mux k f ch)) : ∃ t, exec i s = .next t ∧ TagDone s t k f ch :=
  ⟨_, h, s.finishTag_tagDone k f ch⟩

/-- A tag that raises a channel error on its own channel leaves what `ErrorDone` says. -/
theorem exec_errorDone {i : Instr} {s : State} {r : ErrorReason} (h : exec i s = .next (s.channelError s.mux r)) :
    ∃ t, exec i s = .next t ∧ ErrorDone s t s.mux r :=
  ⟨_, h, s.channelError_errorDone s.mux r⟩

/-! ## The seven kinds that leave the stack's slots alone (R75 to R80, R83) -/

/-- Settles O6: `execRefe` ends by R72 over its own writes, the transfer address written as a number. -/
theorem referenceEndTransition : Obligations.ReferenceEndTransition := by
  intro f s
  rw [← dataAddr_addr]
  exact exec_tagDone rfl

/-- Settles O7: `execCnts` ends by R72 over its own writes, the stall source read off the table of R120. -/
theorem continueStallTransition : Obligations.ContinueStallTransition := by
  intro f s
  rw [← dataAddr_afterTag, ← sameRegion_afterData, if_congr (isSource_iff _ _) rfl rfl]
  exact exec_tagDone rfl

/-- Settles O8: `execCnt` ends by R72 over its own writes, both addresses written as numbers. -/
theorem continueTransition : Obligations.ContinueTransition := by
  intro f s
  rw [← dataAddr_afterTag, ← sameRegion_afterData]
  exact exec_tagDone rfl

/-- Settles O9: `execNext` ends by R72 over its own writes; TADR keeps its region (R20). -/
theorem nextTransition : Obligations.NextTransition := by
  intro f s
  rw [← dataAddr_afterTag, ← sameRegion_addr]
  exact exec_tagDone rfl

/-- Settles O10: `execRef` ends by R72 over its own writes; the data's region is the tag's, TADR's the channel's. -/
theorem referenceTransition : Obligations.ReferenceTransition := by
  intro f s
  rw [← dataAddr_addr, ← sameRegion_afterTag]
  exact exec_tagDone rfl

/-- Settles O11: `execRefs` ends by R72 over its own writes, the stall drain read off the table of R120. -/
theorem referenceStallTransition : Obligations.ReferenceStallTransition := by
  intro f s
  rw [← dataAddr_addr, ← sameRegion_afterTag, if_congr (isDrain_iff _ _) rfl rfl]
  exact exec_tagDone rfl

/-- Settles O16: `execEndTag` ends by R72 over its own writes, the transfer address written as a number. -/
theorem endTransition : Obligations.EndTransition := by
  intro f s
  rw [← dataAddr_afterTag]
  exact exec_tagDone rfl

/-! ## Call (R81, R101) -/

/-- R81: Call where the push succeeds. -/
theorem exec_call_of_push {f : TagFields} {s : State} {ch : ChannelState}
    (h : (s.chan s.mux).push
      (sameRegion (s.chan s.mux).tadr.val (afterData (s.chan s.mux).tadr.val f.qwc)) = some ch) :
    exec (.call f) s = .next (s.finishTag s.mux .call f
      { ch with
        madr := UReg.written (dataAddr f (afterTag (s.chan s.mux).tadr.val))
        tadr := UReg.written (sameRegion (s.chan s.mux).tadr.val f.addr)
        endAfter := false
        stallRole := .none }) := by
  simp only [exec, execCall, h]

/-- R74, R81: Call on a full stack. -/
theorem exec_call_of_full (f : TagFields) {s : State} (h : (s.chan s.mux).cap ≤ (s.chan s.mux).sp) :
    exec (.call f) s = .next (s.channelError s.mux .stackOverflow) := by
  simp only [exec, execCall, ChannelState.push_eq_none _ h]

/-- Settles O12: the push writes the slot that `sp` names, and R72 ends the transition over it. -/
theorem callTransition : Obligations.CallTransition := by
  intro f s h
  rw [← dataAddr_afterTag, ← sameRegion_addr, ← sameRegion_afterData]
  exact exec_tagDone (exec_call_of_push (ChannelState.push_eq_some _ h))

/-- Settles O13: the push fails before anything is written. -/
theorem callOverflows : Obligations.CallOverflows :=
  fun f _ h => exec_errorDone (exec_call_of_full f h)

/-! ## Return (R82, R102) -/

/-- R82: Return where the pop succeeds: TADR is the top slot, all 32 bits, and the slot keeps its value. -/
theorem exec_ret_of_pop (f : TagFields) {s : State} (h : (s.chan s.mux).sp ≠ 0)
    (hd : (s.chan s.mux).topSlot.defined = true) :
    exec (.ret f) s = .next (s.finishTag s.mux .return_ f
      { s.chan s.mux with
        madr := UReg.written (dataAddr f (afterTag (s.chan s.mux).tadr.val))
        tadr := (s.chan s.mux).topSlot
        sp := if (s.chan s.mux).sp = 2 then 1 else 0
        endAfter := false
        stallRole := .none }) := by
  simp only [exec, execRet, ChannelState.pop_popped h hd, UReg.written_val hd, stack_pred h]

/-- R74, R82: Return on an empty stack. -/
theorem exec_ret_of_empty (f : TagFields) {s : State} (h : (s.chan s.mux).sp = 0) :
    exec (.ret f) s = .next (s.channelError s.mux .stackUnderflow) := by
  simp only [exec, execRet, ChannelState.pop_empty h]

/-- R33, R82: Return whose top slot is Undefined. -/
theorem exec_ret_of_undefinedSlot (f : TagFields) {s : State} (h : (s.chan s.mux).sp ≠ 0)
    (hd : (s.chan s.mux).topSlot.defined = false) : exec (.ret f) s = .fault .useOfUndefined := by
  simp only [exec, execRet, ChannelState.pop_undefinedSlot h hd]

/-- R102: the slot on top of one entry. -/
theorem ChannelState.topSlot_of_one {ch : ChannelState} (h : ch.sp = 1) : ch.topSlot = ch.asr0 := by
  rw [ChannelState.topSlot, h]; rfl

/-- R102: the slot on top of two entries. -/
theorem ChannelState.topSlot_of_two {ch : ChannelState} (h : ch.sp = 2) : ch.topSlot = ch.asr1 := if_pos h

/-- Settles O14: the pop answers the written top slot, and R72 ends the transition over it. -/
theorem returnTransition : Obligations.ReturnTransition := by
  intro f s h h2 h1
  rw [← dataAddr_afterTag]
  exact exec_tagDone (exec_ret_of_pop f h (ChannelState.topSlot_defined h h2 h1))

/-- Settles O15: an empty stack is the channel error; with one or two entries the slot popped is ASR0 or ASR1. -/
theorem returnUnderflows : Obligations.ReturnUnderflows := by
  refine ⟨fun f s h => ?empty, fun f s h => ?undefinedSlot⟩
  case empty => exact exec_errorDone (exec_ret_of_empty f h)
  case undefinedSlot =>
    rcases h with ⟨hsp, hd⟩ | ⟨hsp, hd⟩
    · exact exec_ret_of_undefinedSlot f (by simp [hsp]) (by rw [ChannelState.topSlot_of_one hsp, hd])
    · exact exec_ret_of_undefinedSlot f (by simp [hsp]) (by rw [ChannelState.topSlot_of_two hsp, hd])

end Sys2Proof.Machine
end

section
/-! PROOFS, the channel state machine (spec/42_channel_fsm.md). The frame of every step of a channel, the answer of a
channel's turn where its step is enabled, and from these the start, the slice, the stall steps, the ends and the tag
step. -/

namespace Sys2Proof.Machine

open Sys2Proof.Claims

/-! ## Frames: what a channel's own step leaves unchanged (R86) -/

/-- A next state that differs from `s` in the channels, D_STAT and the event history alone, and in no other channel,
meets `OnlyChannel`. -/
theorem onlyChannel_of_eq {c : Chan} {s t : State} (others : OtherChannels c s t)
    (h : t = { s with chans := t.chans, dStat := t.dStat, events := t.events }) : OnlyChannel c s t where
  others := others
  control := by rw [h]; exact ⟨rfl, rfl, rfl, rfl, fun _ _ => rfl, rfl, rfl, rfl⟩
  addresses := by rw [h]; exact ⟨rfl, rfl, rfl⟩
  mux := (congrArg State.mux h :)
  hostData := (congrArg State.hostData h :)

theorem State.setChan_onlyChannel (s : State) (c : Chan) (x : ChannelState) : OnlyChannel c s (s.setChan c x) :=
  onlyChannel_of_eq (fun _ hd => s.setChan_chan_ne x hd) rfl

theorem State.suspendStep_onlyChannel (s : State) (c : Chan) : OnlyChannel c s (s.suspendStep c) :=
  onlyChannel_of_eq (fun _ hd => s.suspendStep_chan_ne hd) rfl

theorem State.descEnd_onlyChannel (s : State) (c : Chan) : OnlyChannel c s (s.descEnd c) := by
  obtain ⟨others, rest⟩ := s.descEnd_rest c
  refine onlyChannel_of_eq others ?_
  rw [rest]

/-- What a step of channel `c` leaves as it was, whichever step it is: SADR of channels 8 and 9 belongs to its own
channel (R22), and the selected channel `mux` may change. -/
structure ChannelFrame (c : Chan) (s t : State) : Prop where
  others : OtherChannels c s t
  control : SameControl s t
  sadr8 : c ≠ .fromSpr → t.sadr8 = s.sadr8
  sadr9 : c ≠ .toSpr → t.sadr9 = s.sadr9

theorem ChannelFrame.of_onlyChannel {c : Chan} {s t : State} (h : OnlyChannel c s t) : ChannelFrame c s t :=
  ⟨h.others, h.control, fun _ => h.addresses.sadr8, fun _ => h.addresses.sadr9⟩

theorem ChannelFrame.refl (c : Chan) (s : State) : ChannelFrame c s s :=
  ⟨fun _ _ => rfl, ⟨rfl, rfl, rfl, rfl, fun _ _ => rfl, rfl, rfl, rfl⟩, fun _ => rfl, fun _ => rfl⟩

/-- The fetch's own writes, `mux` and the event history, are outside the frame (R37). -/
theorem ChannelFrame.of_fetched {c : Chan} {s t : State} (h : ChannelFrame c (s.fetched c) t) : ChannelFrame c s t where
  others := h.others
  control := ⟨h.control.dCtrl, h.control.dPcr, h.control.refused, h.control.faulted, h.control.bytes, h.control.cfg,
    h.control.schedule, h.control.draws⟩
  sadr8 := h.sadr8
  sadr9 := h.sadr9

/-- R72, R137: a tag's meaning changes the selected channel, D_STAT and the event history at most. -/
theorem exec_tag_onlyChannel {k : TagKind} {f : TagFields} {s t : State} (h : exec (Instr.ofTag f k) s = .next t) :
    OnlyChannel s.mux s t := by
  rcases exec_tag_next h with ⟨ch, rfl, -⟩ | ⟨r, rfl, -⟩
  · exact s.finishTag_onlyChannel s.mux k f ch
  · exact s.channelError_onlyChannel s.mux r

/-- R91: a tag step keeps its frame and D_STADR, in its errors too. -/
theorem tagStep_frame {s t : State} {c : Chan} (h : s.tagStep c = .next t) :
    ChannelFrame c s t ∧ t.dStadr = s.dStadr := by
  rcases tagStep_next h with rfl | ⟨k, f, he⟩ | ⟨m, rfl⟩
  · exact ⟨.of_onlyChannel (s.channelError_onlyChannel c _), rfl⟩
  · have tag : OnlyChannel c (s.fetched c) t := exec_tag_onlyChannel he
    exact ⟨.of_fetched (.of_onlyChannel tag), tag.addresses.dStadr⟩
  · exact ⟨.of_fetched (.of_onlyChannel ((s.fetched c).channelError_onlyChannel c _)), rfl⟩

/-- R88, R121, R22: a slice keeps its frame, and writes D_STADR only where its descriptor publishes. -/
theorem slice_frame {s t : State} {c : Chan} {n : Nat} (h : s.slice c n = .next t) :
    ChannelFrame c s t ∧ (t.dStadr = s.dStadr ∨ (s.chan c).stallRole = .publish) := by
  obtain ⟨-, -, others, x8, x9, ht, h8, h9⟩ := State.slice_next h
  refine ⟨⟨others, ?control, fun hc => ?sadr8, fun hc => ?sadr9⟩, ?dStadr⟩
  case control => rw [ht]; exact ⟨rfl, rfl, rfl, rfl, fun _ _ => rfl, rfl, rfl, rfl⟩
  case sadr8 => rw [ht]; exact h8 hc
  case sadr9 => rw [ht]; exact h9 hc
  case dStadr =>
    by_cases hp : (s.chan c).stallRole = .publish
    · exact .inr hp
    · rw [ht]
      exact .inl (if_neg hp)

/-- R86: every step of a channel keeps its frame, and only a publishing slice writes D_STADR (R121). -/
theorem takeStep_frame {s t : State} {c : Chan} {k : ChanStep} (h : s.takeStep c k = .next t) :
    ChannelFrame c s t ∧ (t.dStadr = s.dStadr ∨ (∃ n, k = .slice n) ∧ (s.chan c).stallRole = .publish) := by
  cases k with
  | slice n =>
    obtain ⟨frame, hd⟩ := slice_frame h
    exact ⟨frame, hd.imp_right fun hp => ⟨⟨n, rfl⟩, hp⟩⟩
  | tagStep =>
    obtain ⟨frame, hd⟩ := tagStep_frame h
    exact ⟨frame, .inl hd⟩
  | suspend => cases h; exact ⟨.of_onlyChannel (s.suspendStep_onlyChannel c), .inl rfl⟩
  | descEnd =>
    cases h
    exact ⟨.of_onlyChannel (s.descEnd_onlyChannel c), .inl (s.descEnd_onlyChannel c).addresses.dStadr⟩
  | resume | stop | report => cases h; exact ⟨.of_onlyChannel (s.setChan_onlyChannel c _), .inl rfl⟩

/-- Settles O53: a turn passes or takes one step of the channel, and each step keeps its frame. -/
theorem channelsAreIsolated : Obligations.ChannelsAreIsolated := by
  intro s t c k h
  have unmarked : Unmarked s := (step_next h).imp_right And.left
  rw [step_given unmarked] at h
  have turn : ChannelFrame c s t ∧
      (t.dStadr = s.dStadr ∨ (∃ n, k = .slice n) ∧ (s.chan c).stallRole = .publish) := by
    rcases chanTurn_next h with rfl | ⟨-, -, hk⟩
    · exact ⟨.refl c t, .inl rfl⟩
    · exact takeStep_frame hk
  obtain ⟨frame, hd⟩ := turn
  exact ⟨frame.others, frame.control, frame.sadr8, frame.sadr9, hd⟩

/-! ## The start (R87, R129) -/

theorem eq_zero_iff_toNat (q : BitVec 16) : q = 0#16 ↔ q.toNat = 0 := by
  rw [← BitVec.toNat_inj, BitVec.toNat_zero]

theorem ne_zero_of_toNat_pos {q : BitVec 16} (h : 0 < q.toNat) : q ≠ 0#16 :=
  fun hz => h.ne' ((eq_zero_iff_toNat q).1 hz)

/-- R87: the start opens a descriptor where QWC is above 0. -/
theorem bne_zero_eq_decide (q : BitVec 16) : (q != 0#16) = decide (0 < q.toNat) := by
  rw [Bool.eq_iff_iff, bne_iff_ne, decide_eq_true_iff, Ne, eq_zero_iff_toNat, Nat.pos_iff_ne_zero]

/-- R129: the state in which the start runs: the fields of CHCR that a write stores are stored. -/
def State.configured (s : State) (c : Chan) (v : Word) : State :=
  s.setChan c { s.chan c with chcr := (s.chan c).chcr.write v }

section Start
variable {s : State} {c : Chan} {v : Word}

theorem State.configured_chan (s : State) (c : Chan) (v : Word) :
    (s.configured c v).chan c = { s.chan c with chcr := (s.chan c).chcr.write v } := s.setChan_chan_self c _

theorem State.configured_mod (s : State) (c : Chan) (v : Word) :
    ((s.configured c v).chan c).chcr.mod = v.extractLsb' 2 2 := by rw [s.configured_chan]; rfl

theorem State.configured_qwc (s : State) (c : Chan) (v : Word) :
    ((s.configured c v).chan c).qwc = (s.chan c).qwc := by rw [s.configured_chan]

theorem State.configured_madr (s : State) (c : Chan) (v : Word) :
    ((s.configured c v).chan c).madr = (s.chan c).madr := by rw [s.configured_chan]

theorem State.configured_setChan (s : State) (c : Chan) (v : Word) (x : ChannelState) :
    (s.configured c v).setChan c x = s.setChan c x := s.setChan_setChan c _ x

/-- R129: a write of CHCR with STR = 1 to a Stopped channel stores the configuration, then starts. -/
theorem exec_write_chcr_start (hp : (s.chan c).phase = .stopped) (hv : v.getLsbD 8 = true) :
    exec (Instr.chanWrite v c .chcr) s = (s.configured c v).startChannel c := by
  rw [exec_write_chcr]
  simp only [writeChcr, hp, hv, if_true, State.configured]

theorem State.startChannel_interleave (hm : (s.chan c).chcr.mod = 2#2) :
    s.startChannel c = .refused .interleaveMode := if_pos hm

theorem State.startChannel_reserved (hm : (s.chan c).chcr.mod = 3#2) :
    s.startChannel c = .refused .reservedMode := by
  simp [State.startChannel, hm]

theorem State.startChannel_mfifo (hm : (s.chan c).chcr.mod = 0#2 ∨ (s.chan c).chcr.mod = 1#2)
    (hf : mfd s.dCtrl ≠ 0#2) : s.startChannel c = .refused .mfifo := by
  rcases hm with hm | hm <;> simp [State.startChannel, hm, hf]

theorem State.startChannel_undefinedQwc (hm : (s.chan c).chcr.mod = 0#2 ∨ (s.chan c).chcr.mod = 1#2)
    (hf : mfd s.dCtrl = 0#2) (hq : (s.chan c).qwc.defined = false) : s.startChannel c = .fault .useOfUndefined := by
  rcases hm with hm | hm <;> simp [State.startChannel, hm, hf, hq]

theorem State.startChannel_undefinedMadr (hm : (s.chan c).chcr.mod = 0#2 ∨ (s.chan c).chcr.mod = 1#2)
    (hf : mfd s.dCtrl = 0#2) (hq : (s.chan c).qwc.defined = true)
    (hu : (s.chan c).chcr.mod = 0#2 ∨ (s.chan c).qwc.val.toNat ≠ 0) (ha : (s.chan c).madr.defined = false) :
    s.startChannel c = .fault .useOfUndefined := by
  rw [Ne, ← eq_zero_iff_toNat] at hu
  rcases hm with hm | hm <;> simp_all [State.startChannel]

theorem State.startChannel_normal (hm : (s.chan c).chcr.mod = 0#2) (hf : mfd s.dCtrl = 0#2)
    (hq : (s.chan c).qwc.defined = true) (ha : (s.chan c).madr.defined = true) :
    s.startChannel c = .next (s.setChan c
      { s.chan c with
        stopReq := false, irqArmed := false, mode := .normal, descOpen := true, endAfter := true
        stallRole := normalRole s.dCtrl c, phase := .running }) := by
  simp [State.startChannel, hm, hf, hq, ha]

theorem State.startChannel_chain (hm : (s.chan c).chcr.mod = 1#2) (hf : mfd s.dCtrl = 0#2)
    (hq : (s.chan c).qwc.defined = true) (ha : (s.chan c).qwc.val.toNat = 0 ∨ (s.chan c).madr.defined = true) :
    s.startChannel c = .next (s.setChan c
      { s.chan c with
        stopReq := false, irqArmed := false, mode := .chain, sp := 0, cap := capOf (s.chan c).chcr.asp
        descOpen := decide (0 < (s.chan c).qwc.val.toNat), endAfter := false, stallRole := .none
        phase := .running }) := by
  rw [← eq_zero_iff_toNat] at ha
  rw [← bne_zero_eq_decide]
  rcases ha with ha | ha <;> simp [State.startChannel, hm, hf, hq, ha]

/-- R16: with bit 3 of the CHCR value 0, MOD is Normal or Chain, and bit 2 says which. -/
theorem startMode_of_bit3 (h3 : v.getLsbD 3 = false) :
    v.extractLsb' 2 2 = if v.getLsbD 2 then 1#2 else 0#2 := by
  have bit2 : (v.extractLsb' 2 2).getLsbD 0 = v.getLsbD 2 := by simp
  have bit3 : (v.extractLsb' 2 2).getLsbD 1 = v.getLsbD 3 := by simp
  rw [← bit3] at h3
  rw [← bit2]
  revert h3
  generalize v.extractLsb' 2 2 = m
  revert m
  decide

theorem startMode_known (h3 : v.getLsbD 3 = false) : v.extractLsb' 2 2 = 0#2 ∨ v.extractLsb' 2 2 = 1#2 := by
  rw [startMode_of_bit3 h3]
  cases v.getLsbD 2 <;> simp

/-- R120: the role of a Normal-mode channel, by the statement's own tables. -/
theorem normalRole_eq (d : BitVec 11) (c : Chan) :
    normalRole d c = if isSource d c then .publish else if isDrain d c then .check else .none := by
  rw [normalRole, if_congr (isSource_iff d c) rfl (if_congr (isDrain_iff d c) rfl rfl)]

end Start

/-- Settles O26: the stored configuration decides the mode, and R87 writes its fields over it. -/
theorem chcrWriteStarts : Obligations.ChcrWriteStarts := by
  intro c v s hp hv hf hq
  rw [exec_write_chcr_start hp hv, ← normalRole_eq, ← capOf_extract]
  rw [← s.configured_qwc c v] at hq
  refine ⟨fun hm ha => ?normal, fun hm ha => ?chain⟩
  case normal =>
    rw [← s.configured_madr c v] at ha
    rw [State.startChannel_normal ((s.configured_mod c v).trans hm) hf hq ha, s.configured_setChan, s.configured_chan,
      Chcr.write, hm]
    rfl
  case chain =>
    rw [← s.configured_madr c v, ← s.configured_qwc c v] at ha
    rw [State.startChannel_chain ((s.configured_mod c v).trans hm) hf hq ha, s.configured_setChan, s.configured_chan,
      Chcr.write, hm]

/-- Settles O27: each check of R87 on the stored configuration, the ones before it passed. -/
theorem startRefusals : Obligations.StartRefusals := by
  intro c v s hp hv
  rw [exec_write_chcr_start hp hv, ← s.configured_qwc c v, ← s.configured_madr c v]
  have mode := s.configured_mod c v
  refine ⟨fun hm => ?interleave, fun hm => ?reserved, fun h3 hf => ?mfifo, fun h3 hf hq => ?qwc,
    fun h3 hf hq hu ha => ?madr⟩
  case interleave => exact State.startChannel_interleave (mode.trans hm)
  case reserved => exact State.startChannel_reserved (mode.trans hm)
  case mfifo => exact State.startChannel_mfifo (mode ▸ startMode_known h3) hf
  case qwc => exact State.startChannel_undefinedQwc (mode ▸ startMode_known h3) hf hq
  case madr =>
    refine State.startChannel_undefinedMadr (mode ▸ startMode_known h3) hf hq (hu.imp_left fun h2 => ?_) ha
    rw [mode, startMode_of_bit3 h3, h2]; rfl

/-! ## A turn whose step is enabled (R85, R116) -/

section Turn
variable {s : State} {c : Chan} {k : ChanStep}

/-- R85, R116: a channel's given turn takes the step that is enabled. -/
theorem step_given_ready (hu : Unmarked s) (ho : s.chanOn c = true) (hr : s.stepReady c k = some true) :
    step (given s (.chan c k)) = s.takeStep c k := by
  rw [step_given hu, State.turn, State.chanTurn, if_pos ho, hr]

/-- R33, R122: a channel's given turn is a model fault where asking for its step uses an Undefined register. -/
theorem step_given_undefined (hu : Unmarked s) (ho : s.chanOn c = true) (hr : s.stepReady c k = none) :
    step (given s (.chan c k)) = .fault .useOfUndefined := by
  rw [step_given hu, State.turn, State.chanTurn, if_pos ho, hr]

/-- R122: the stall check of a checked descriptor uses D_STADR. -/
theorem stallLimit_undefined {ch : ChannelState} {d : UReg 31} (hrole : ch.stallRole = .check)
    (hd : d.defined = false) : stallLimit ch d = none :=
  stallLimit_eq_none.2 ⟨hrole, .inl hd⟩

theorem State.stepReady_slice_undefined (n : Nat) (hp : (s.chan c).phase = .running)
    (hq : (s.chan c).qwc.val ≠ 0#16) (hl : stallLimit (s.chan c) s.dStadr = none) :
    s.stepReady c (.slice n) = none := by
  simp [State.stepReady, hp, hq, hl]

theorem State.stepReady_suspend_undefined (hp : (s.chan c).phase = .running)
    (hq : (s.chan c).qwc.val ≠ 0#16) (hl : stallLimit (s.chan c) s.dStadr = none) :
    s.stepReady c .suspend = none := by
  simp [State.stepReady, hp, hq, hl]

theorem State.stepReady_resume_undefined (hp : (s.chan c).phase = .suspended)
    (hl : stallLimit (s.chan c) s.dStadr = none) : s.stepReady c .resume = none := by
  simp [State.stepReady, hp, hl]

/-- R122: a descriptor may move `n` quadwords that QWC can hold, where it is not checked or stays below the
boundary. -/
theorem stallLimit_admits {n : Nat} (hm : (s.chan c).madr.defined = true) (hn : n < 2 ^ 16)
    (hb : (s.chan c).stallRole = .check → belowBoundary s c n) :
    ∃ l, stallLimit (s.chan c) s.dStadr = some l ∧ n ≤ l := by
  by_cases hrole : (s.chan c).stallRole = .check
  · obtain ⟨hd, hle⟩ := hb hrole
    refine ⟨_, (stallLimit_check hrole).2 ⟨hd, hm, rfl⟩, ?_⟩
    rw [addrOf] at hle
    omega
  · exact ⟨65535, stallLimit_unchecked s.dStadr hrole, by omega⟩

/-- R122: a checked descriptor with less than a quadword below the boundary may move none. -/
theorem stallLimit_eq_zero (hm : (s.chan c).madr.defined = true) (hrole : (s.chan c).stallRole = .check)
    (hd : s.dStadr.defined = true) (hb : s.dStadr.val.toNat < addrOf (s.chan c).madr.val + 16) :
    stallLimit (s.chan c) s.dStadr = some 0 := by
  refine (stallLimit_check hrole).2 ⟨hd, hm, ?_⟩
  rw [addrOf] at hb
  omega

end Turn

/-! ## The slice (R88, R121, R22) -/

section Slice
variable {s : State} {c : Chan} {n : Nat}

/-- R22, R88: SADR of channels 8 and 9 moves on where it is not Undefined. -/
theorem State.advanceSadr_eq_some (h8 : c = .fromSpr → s.sadr8.defined = true)
    (h9 : c = .toSpr → s.sadr9.defined = true) :
    s.advanceSadr c n = some
      { s with
        sadr8 := if c = .fromSpr then UReg.written (s.sadr8.val + BitVec.ofNat 14 (16 * n)) else s.sadr8
        sadr9 := if c = .toSpr then UReg.written (s.sadr9.val + BitVec.ofNat 14 (16 * n)) else s.sadr9 } := by
  cases c with
  | fromSpr => exact if_pos (h8 rfl)
  | toSpr => exact if_pos (h9 rfl)
  | _ => rfl

/-- R88: the state after a slice of `n` quadwords. -/
def State.sliced (s : State) (c : Chan) (n : Nat) : State :=
  { s.setChan c
      { s.chan c with
        madr := UReg.written (advance (s.chan c).madr.val n)
        qwc := UReg.written ((s.chan c).qwc.val - BitVec.ofNat 16 n) } with
    sadr8 := if c = .fromSpr then UReg.written (s.sadr8.val + BitVec.ofNat 14 (16 * n)) else s.sadr8
    sadr9 := if c = .toSpr then UReg.written (s.sadr9.val + BitVec.ofNat 14 (16 * n)) else s.sadr9
    dStadr := if (s.chan c).stallRole = .publish
      then UReg.written (addrBits (advance (s.chan c).madr.val n)) else s.dStadr }

theorem State.slice_eq_sliced (hm : (s.chan c).madr.defined = true) (h8 : c = .fromSpr → s.sadr8.defined = true)
    (h9 : c = .toSpr → s.sadr9.defined = true) : s.slice c n = .next (s.sliced c n) := by
  simp only [State.slice, hm, State.advanceSadr_eq_some h8 h9, State.publish_eq]
  rfl

/-- R141: a slice of channel 8 or 9 uses its SADR. -/
theorem State.slice_undefinedSadr
    (h : c = .fromSpr ∧ s.sadr8.defined = false ∨ c = .toSpr ∧ s.sadr9.defined = false) :
    s.slice c n = .fault .useOfUndefined := by
  simp only [State.slice, State.advanceSadr_eq_none.2 h, ite_self]

theorem State.sliced_chan_self (s : State) (c : Chan) (n : Nat) :
    (s.sliced c n).chan c =
      { s.chan c with
        madr := UReg.written (advance (s.chan c).madr.val n)
        qwc := UReg.written ((s.chan c).qwc.val - BitVec.ofNat 16 n) } := s.setChan_chan_self c _

theorem State.sliced_otherChannels (s : State) (c : Chan) (n : Nat) : OtherChannels c s (s.sliced c n) :=
  fun _ hd => s.setChan_chan_ne _ hd

theorem State.sliced_sameControl (s : State) (c : Chan) (n : Nat) : SameControl s (s.sliced c n) :=
  ⟨rfl, rfl, rfl, rfl, fun _ _ => rfl, rfl, rfl, rfl⟩

/-- R70, R88: a transfer address moves on within its 31 bits, its region bit kept. -/
theorem advance_eq_atRegion (w : Word) (n : Nat) : advance w n = atRegion (regOf w) (addrOf w + 16 * n) := by
  have moved : (add31 (addrBits w) (16 * n)).toNat = (addrOf w + 16 * n) % 2 ^ 31 := by
    rw [add31_toNat, addrBits_toNat, addrOf]
  rw [advance_eq, regionAddr_eq_atRegion _ moved, regionBit_eq_decide, regOf]

theorem addrBits_advance (w : Word) (n : Nat) :
    addrBits (advance w n) = BitVec.ofNat 31 (addrOf w + 16 * n) := by
  rw [advance_eq, addrBits_regionAddr, add31, BitVec.ofNat_add, ← BitVec.toNat_inj, BitVec.toNat_add,
    BitVec.toNat_add, addrBits_toNat, BitVec.toNat_ofNat, addrOf]
  simp

theorem add_ofNat_eq {w : Nat} (x : BitVec w) (m : Nat) : x + BitVec.ofNat w m = BitVec.ofNat w (x.toNat + m) := by
  rw [BitVec.ofNat_add, BitVec.ofNat_toNat, BitVec.setWidth_eq]

theorem sub_ofNat_eq {w : Nat} {x : BitVec w} {m : Nat} (h : m ≤ x.toNat) :
    x - BitVec.ofNat w m = BitVec.ofNat w (x.toNat - m) := by
  rw [← BitVec.ofNat_sub_ofNat_of_le _ _ (h.trans_lt x.isLt) h, BitVec.ofNat_toNat, BitVec.setWidth_eq]

end Slice

/-- Settles O41: the stall limit admits the slice, so the turn takes it or faults on SADR; a checked descriptor without
D_STADR faults before that. -/
theorem sliceStep : Obligations.SliceStep := by
  intro s c n hu ho hp hq hm h1 hn
  have ready (hb : (s.chan c).stallRole = .check → belowBoundary s c n) : s.stepReady c (.slice n) = some true :=
    (s.stepReady_slice c).2 ⟨hp, hq, h1, hn, stallLimit_admits hm (hn.trans_lt (s.chan c).qwc.val.isLt) hb⟩
  refine ⟨fun hrole hd => ?boundaryUndefined, fun hb h => ?sadrUndefined, fun hb h8 h9 => ?slice⟩
  case boundaryUndefined =>
    have left := ne_zero_of_toNat_pos (Nat.lt_of_lt_of_le h1 hn)
    exact step_given_undefined hu ho (State.stepReady_slice_undefined n hp left (stallLimit_undefined hrole hd))
  case sadrUndefined =>
    rw [step_given_ready hu ho (ready hb)]
    exact State.slice_undefinedSadr h
  case slice =>
    rw [← advance_eq_atRegion, ← addrBits_advance, ← add_ofNat_eq, ← add_ofNat_eq, ← sub_ofNat_eq hn,
      step_given_ready hu ho (ready hb)]
    exact ⟨s.sliced c n, State.slice_eq_sliced hm h8 h9, s.sliced_chan_self c n, rfl, rfl, rfl, rfl, rfl, rfl, rfl,
      s.sliced_otherChannels c n, s.sliced_sameControl c n⟩

/-! ## The stall suspension and the resume (R93, R94) -/

/-- Settles O43: the stall limit is 0 below a quadword and at least 1 from there on, and none without D_STADR. -/
theorem suspendAndResume : Obligations.SuspendAndResume := by
  intro s c hu ho hm hrole
  refine ⟨fun hp hq hleft => ⟨fun hd => ?suspendUndefined, fun hd hb => ?suspend⟩,
    fun hp => ⟨fun hd => ?resumeUndefined, fun hb => ?resume⟩⟩
  case suspendUndefined =>
    have left := ne_zero_of_toNat_pos hleft
    exact step_given_undefined hu ho (State.stepReady_suspend_undefined hp left (stallLimit_undefined hrole hd))
  case suspend =>
    have left := ne_zero_of_toNat_pos hleft
    have ready := (s.stepReady_suspend c).2 ⟨hp, hq, left, stallLimit_eq_zero hm hrole hd hb⟩
    exact ⟨s.suspendStep c, step_given_ready hu ho ready, s.suspendStep_chan_self c, statRaise_getLsbD s.dStat .sis,
      rfl, s.suspendStep_onlyChannel c⟩
  case resumeUndefined =>
    exact step_given_undefined hu ho (State.stepReady_resume_undefined hp (stallLimit_undefined hrole hd))
  case resume =>
    have ready := (s.stepReady_resume c).2 ⟨hp, stallLimit_admits hm (by decide) fun _ => hb⟩
    exact step_given_ready hu ho ready

/-! ## The descriptor end, the stop and the report (R89, R90, R95, R96) -/

theorem State.descEnd_events (s : State) (c : Chan) : (s.descEnd c).events = s.events := by
  rw [(s.descEnd_rest c).2]

/-- R89, R90: the descriptor end raises the channel's bit where it was armed, or where it completes and
CIS_ON_COMPLETION. -/
theorem State.descEnd_statSet {s : State} {c : Chan}
    (h : (s.chan c).irqArmed = true ∨ (s.chan c).isDone s.cfg = true ∧ s.cfg.cisOnCompletion = true) :
    StatSet c.num s (s.descEnd c) := by
  rw [StatSet, (s.descEnd_rest c).2]
  dsimp only
  rw [if_pos (by simpa using h)]
  exact statRaise_getLsbD s.dStat (.cis c)

theorem State.descEnd_stat_same {s : State} {c : Chan} (ha : (s.chan c).irqArmed = false)
    (h : (s.chan c).isDone s.cfg = false ∨ s.cfg.cisOnCompletion = false) : (s.descEnd c).dStat = s.dStat := by
  rw [(s.descEnd_rest c).2]
  exact if_neg (by rcases h with h | h <;> simp [ha, h])

/-- Settles O44: whether the channel completes decides what is left of it, and D_STAT gains its bit or nothing. -/
theorem descriptorEnd : Obligations.DescriptorEnd := by
  intro s c hu ho hp hq hopen
  have ready : s.stepReady c .descEnd = some true :=
    (s.stepReady_descEnd c).2 ⟨hp, by rw [hq], by rw [hq], hopen⟩
  refine ⟨s.descEnd c, step_given_ready hu ho ready, s.descEnd_events c, s.descEnd_onlyChannel c, fun hend => ?done,
    fun hlast harm => ?goesOn⟩
  case done =>
    have done : (s.chan c).isDone s.cfg = true := by simpa [ChannelState.isDone] using hend
    refine ⟨by rw [s.descEnd_chan_self, if_pos done], fun h => ?_, fun ha hc => ?_⟩
    · exact State.descEnd_statSet (h.imp_right fun hc => ⟨done, hc⟩)
    · exact State.descEnd_stat_same ha (.inr hc)
  case goesOn =>
    have more : (s.chan c).isDone s.cfg = false := by
      rcases harm with h | h <;> simp [ChannelState.isDone, hlast, h]
    refine ⟨by rw [s.descEnd_chan_self, more]; rfl, fun ha => ?_, fun ha => ?_⟩
    · exact State.descEnd_statSet (.inl ha)
    · exact State.descEnd_stat_same ha (.inl more)

/-- Settles O45: both steps are enabled there, and both write what `halt` writes. -/
theorem stopAndReport : Obligations.StopAndReport := by
  intro s c hu ho
  refine ⟨fun hreq hp => ?stop, fun e hp => ?report⟩
  case stop => exact step_given_ready hu ho ((s.stepReady_stop c).2 ⟨hreq, hp⟩)
  case report => exact step_given_ready hu ho ((s.stepReady_report c).2 ⟨e, hp⟩)

/-- Settles O48: the End tag leaves an open last descriptor with no data, so its descriptor end completes. -/
theorem endStopsWithEmptyStack : Obligations.EndStopsWithEmptyStack := by
  intro f s t hu ho hp hf h
  obtain ⟨t', ht', tag⟩ := endTransition f s
  obtain rfl : t' = t := by rw [ht'] at h; cases h; rfl
  have chan := tag.channel
  have control := tag.rest.control
  have unmarked : Unmarked t' := ⟨control.refused.trans hu.1, control.faulted.trans hu.2⟩
  have on : t'.chanOn s.mux = true := by rw [State.chanOn, control.dCtrl, control.dPcr]; exact ho
  obtain ⟨u, hstep, -, -, complete, -⟩ := descriptorEnd t' s.mux unmarked on
    (by rw [chan]; exact hp) (by rw [chan, hf]) (by rw [chan])
  obtain ⟨ended, raised, -⟩ := complete (.inl (by rw [chan]))
  refine ⟨u, hstep, by rw [ended], by rw [ended, chan], by rw [ended, chan], fun hc => ?_⟩
  rw [raised (.inr (control.cfg ▸ hc)) _ (s.mux.num_lt.trans (by decide)), decide_eq_true rfl, Bool.true_or]

/-! ## A stop request and the tag step (R91, R155) -/

/-- From `s` to `t` the event history grows, and by no tag read of channel `c`. -/
def AppendsNoTagRead (c : Chan) (s t : State) : Prop :=
  ∃ es, t.events = s.events ++ es ∧ ∀ e ∈ es, ∀ r a, e ≠ .tagRead c r a

theorem AppendsNoTagRead.of_eq {c : Chan} {s t : State} (h : t.events = s.events) : AppendsNoTagRead c s t :=
  ⟨[], by rw [h, List.append_nil], nofun⟩

/-- R37, R72: a tag's transition appends its hint at most. -/
theorem exec_tag_hint {k : TagKind} {f : TagFields} {s t : State} (h : exec (Instr.ofTag f k) s = .next t) :
    t.events = s.events ∨ t.events = s.events ++ [.priorityHint s.mux f.pce] := by
  rcases exec_tag_next h with ⟨ch, rfl, -⟩ | ⟨r, rfl, -⟩
  · exact .inr rfl
  · exact .inl rfl

/-- R37, R91: a tag step of channel `c` reads a tag of `c` alone. -/
theorem tagStep_appendsNoTagRead {s t : State} {c d : Chan} (h : s.tagStep c = .next t) (hd : d ≠ c) :
    AppendsNoTagRead d s t := by
  have fetched : AppendsNoTagRead d s (s.fetched c) := ⟨_, rfl, by simp [hd.symm]⟩
  rcases tagStep_next h with rfl | ⟨k, f, he⟩ | ⟨m, rfl⟩
  · exact .of_eq rfl
  · rcases exec_tag_hint he with ht | ht
    · obtain ⟨es, hes, hno⟩ := fetched
      exact ⟨es, ht.trans hes, hno⟩
    · exact ⟨_, by rw [ht, State.fetched, List.append_assoc], by simp [hd.symm]⟩
  · exact fetched

/-- R31, R37: of a channel's steps only the tag step appends to the event history. -/
theorem takeStep_events_eq {s t : State} {c : Chan} {k : ChanStep} (h : s.takeStep c k = .next t)
    (hk : k ≠ .tagStep) : t.events = s.events := by
  cases k with
  | tagStep => exact absurd rfl hk
  | slice n => exact (State.slice_keeps_dStat_events h).2
  | descEnd => cases h; exact s.descEnd_events c
  | suspend | resume | stop | report => cases h; rfl

/-- R91, R95: the tag step asks for no stop request on its own channel. -/
theorem chanTurn_appendsNoTagRead {s t : State} {c d : Chan} {k : ChanStep} (hd : (s.chan d).stopReq = true)
    (h : s.chanTurn c k = .next t) : AppendsNoTagRead d s t := by
  rcases chanTurn_next h with rfl | ⟨-, hr, hk⟩
  · exact .of_eq rfl
  · by_cases htag : k = .tagStep
    · subst htag
      obtain ⟨-, -, -, -, -, hreq⟩ := (s.stepReady_tagStep c).1 hr
      refine tagStep_appendsNoTagRead hk ?_
      rintro rfl
      rw [hd] at hreq; cases hreq
    · exact .of_eq (takeStep_events_eq hk htag)

theorem turn_appendsNoTagRead {s t : State} {d : Chan} {u : Turn} (hd : (s.chan d).stopReq = true)
    (h : s.turn u = .next t) : AppendsNoTagRead d s t := by
  cases u with
  | chan c k => exact chanTurn_appendsNoTagRead hd h
  | host a =>
    obtain ⟨-, r, -, he⟩ := hostTurn_next h
    exact .of_eq (exec_access_next he).events
  | busErrorIn | mfifoEmptyIn => cases h; exact .of_eq rfl
  | memWrite r a bs => cases h; exact .of_eq (s.writeBytes_events r a bs)

/-- Settles O47: of all turns only an enabled tag step of another channel can append a tag read. -/
theorem stopRequestBlocksFetch : Obligations.StopRequestBlocksFetch := by
  intro s t c hreq h
  have appends : AppendsNoTagRead c s t := by
    obtain ⟨-, -, ⟨u, ts, -, hu⟩ | ⟨-, d, k, -, hk⟩ | ⟨-, -, rfl⟩⟩ := step_next h
    · exact (turn_appendsNoTagRead (s := { s with schedule := ts }) hreq hu :)
    · exact (chanTurn_appendsNoTagRead (s := { s with draws := s.draws + 1 }) hreq hk :)
    · exact .of_eq rfl
  obtain ⟨es, hes, hno⟩ := appends
  rwa [hes, List.drop_left]

/-! ## The tag step on a tag that decodes (R91, R36 to R38) -/

theorem regionOf_eq (w : Word) : regionOf w = if regOf w then .scratchPad else .memory := by
  rw [regionOf, regionBit_eq_decide, regOf]

theorem addrBits_eq_ofNat (w : Word) : addrBits w = BitVec.ofNat 31 (addrOf w) := by
  rw [← BitVec.toNat_inj, addrBits_toNat, BitVec.toNat_ofNat, addrOf, Nat.mod_mod]

theorem regionSize_ite (g : Config) (b : Bool) :
    regionSize g (if b then .scratchPad else .memory) = if b then g.sprSize else g.memSize := by
  cases b <;> rfl

/-- What decodes from bytes decodes from their 128 bits (R38). -/
theorem decodeRaw_of_decodeTagBytes {bs : List Byte} {dir : Direction} {tte : Bool} {i : Instr}
    (h : decodeTagBytes bs dir tte = .ok i) : decodeRaw (rawOfBytes bs) dir tte = .ok i := by
  unfold decodeTagBytes at h
  split at h
  · split at h
    · next j hj => cases h; exact hj
    · cases h
  · cases h

/-- R91: a tag step whose bytes are in reach and decode runs the decoded tag on the fetched state. -/
theorem tagStep_eq_exec {s : State} {c : Chan} {bs : List Byte} {i : Instr} (hd : (s.chan c).tadr.defined = true)
    (ha : tagAligned (s.chan c).tadr.val = true)
    (hread : s.memRead16 (regionOf (s.chan c).tadr.val) (addrBits (s.chan c).tadr.val) = some bs)
    (hi : decodeRaw (rawOfBytes bs) (effDir s.cfg c (s.chan c).chcr) (s.chan c).chcr.tte = .ok i) :
    s.tagStep c = exec i (s.fetched c) := by
  simp [State.tagStep, hd, ha, hread, hi]

/-- Settles O39: the tag step is enabled, its read answers the region's own 16 bytes, and those decode to `i`. -/
theorem stepRunsDecodedTag : Obligations.StepRunsDecodedTag := by
  intro s c i hu ho hp hmode hq hopen hreq hd ha hreach hdecode
  have ready : s.stepReady c .tagStep = some true :=
    (s.stepReady_tagStep c).2 ⟨hp, hmode, by rw [hq], by rw [hq], hopen, hreq⟩
  rw [← regionOf_eq, ← addrBits_eq_ofNat, step_given_ready hu ho ready]
  rw [← regionSize_ite, ← regionOf_eq, addrOf, ← addrBits_toNat] at hreach
  rw [← regionOf_eq, addrOf, ← addrBits_toNat, ← State.readBytes_eq_map] at hdecode
  exact tagStep_eq_exec hd ((tagAligned_iff _).2 ha) (s.memRead16_eq_some.2 ⟨hreach, rfl⟩)
    (decodeRaw_of_decodeTagBytes hdecode)

end Sys2Proof.Machine
end

section
/-! PROOFS, the address stack (spec/43_address_stack.md). The two slots as the list of the occupied ones, top first:
Call pushes the address that a Continue would have gone on at, Return pops it. -/

namespace Sys2Proof.Machine

open Sys2Proof.Claims

/-! ## The occupied slots as a list (R99) -/

/-- The occupied slots, top first (R99). -/
def ChannelState.stack (ch : ChannelState) : List (UReg 32) :=
  if ch.sp = 0 then [] else if ch.sp = 1 then [ch.asr0] else [ch.asr1, ch.asr0]

section Stack
variable {ch : ChannelState}

theorem ChannelState.stack_of_zero (h : ch.sp = 0) : ch.stack = [] := if_pos h

theorem ChannelState.stack_of_one (h : ch.sp = 1) : ch.stack = [ch.asr0] := by simp [ChannelState.stack, h]

theorem ChannelState.stack_of_two (h : ch.sp = 2) : ch.stack = [ch.asr1, ch.asr0] := by simp [ChannelState.stack, h]

theorem ChannelState.sp_cases (ch : ChannelState) : ch.sp = 0 ∨ ch.sp = 1 ∨ ch.sp = 2 := by omega

theorem ChannelState.stack_length (ch : ChannelState) : ch.stack.length = (ch.sp : Nat) := by
  rcases ch.sp_cases with h | h | h
  · rw [stack_of_zero h, h]; rfl
  · rw [stack_of_one h, h]; rfl
  · rw [stack_of_two h, h]; rfl

/-- R101: a push puts the address on top of the list. -/
theorem ChannelState.push_stack (a : Word) (h : ch.stack.length < (ch.cap : Nat)) :
    ∃ ch', ch.push a = some ch' ∧ ch'.cap = ch.cap ∧ ch'.stack = UReg.written a :: ch.stack := by
  rw [stack_length] at h
  refine ⟨_, push_eq_some a h, rfl, ?_⟩
  rcases ch.sp_cases with h0 | h1 | h2
  · rw [stack_of_zero h0, stack_of_one (if_pos h0)]
    simp only [h0, if_true]
  · have hne : ch.sp ≠ 0 := by simp [h1]
    rw [stack_of_one h1, stack_of_two (if_neg hne)]
    simp only [hne, if_false]
  · omega

/-- R102: a pop reads the head of the list and leaves its tail. -/
theorem ChannelState.stack_eq_cons {r : UReg 32} {l : List (UReg 32)} (h : ch.stack = r :: l) :
    ch.sp ≠ 0 ∧ ch.topSlot = r ∧ { ch with sp := if ch.sp = 2 then 1 else 0 }.stack = l := by
  rcases ch.sp_cases with h0 | h1 | h2
  · rw [stack_of_zero h0] at h; cases h
  · rw [stack_of_one h1] at h
    cases h
    exact ⟨by simp [h1], topSlot_of_one h1, stack_of_zero (if_neg (by simp [h1]))⟩
  · rw [stack_of_two h2] at h
    cases h
    exact ⟨by simp [h2], topSlot_of_two h2, stack_of_one (if_pos h2)⟩

end Stack

/-! ## Call and Return on the list (R81, R82, R106) -/

/-- The tag address right after a descriptor of `q` quadwords at TADR: what Continue sets and Call pushes (R77, R81). -/
def ChannelState.continueAddr (ch : ChannelState) (q : BitVec 16) : UReg 32 :=
  UReg.written (sameRegion ch.tadr.val (afterData ch.tadr.val q))

section Tags
variable {s : State} {c : Chan}

theorem exec_cnt_tadr (f : TagFields) (hc : s.mux = c) :
    ∃ t, exec (.cnt f) s = .next t ∧ (t.chan c).tadr = (s.chan c).continueAddr f.qwc := by
  subst hc
  exact ⟨_, rfl, State.finishTag_tadr _ _ _ _ _⟩

/-- R81: Call with a free slot. -/
theorem exec_call_stack {f : TagFields} {t : State} (hc : s.mux = c)
    (hfree : (s.chan c).stack.length < ((s.chan c).cap : Nat)) (h : exec (.call f) s = .next t) :
    t.mux = c ∧ (t.chan c).cap = (s.chan c).cap ∧
      (t.chan c).stack = (s.chan c).continueAddr f.qwc :: (s.chan c).stack := by
  subst hc
  obtain ⟨ch, hpush, hcap, hstack⟩ := ChannelState.push_stack _ hfree
  rw [exec_call_of_push hpush] at h
  cases h
  rw [State.finishTag_chan_self]
  exact ⟨rfl, hcap, hstack⟩

/-- R74, R101: Call with no free slot. -/
theorem exec_call_full (f : TagFields) (hc : s.mux = c) (hfull : ((s.chan c).cap : Nat) ≤ (s.chan c).stack.length) :
    ∃ t, exec (.call f) s = .next t ∧ ErrorDone s t c .stackOverflow := by
  subst hc
  rw [ChannelState.stack_length] at hfull
  exact callOverflows f s hfull

/-- R82: Return goes on at the head of the list. -/
theorem exec_ret_stack (f : TagFields) {r : UReg 32} {l : List (UReg 32)} (hc : s.mux = c)
    (hstack : (s.chan c).stack = r :: l) (hr : r.defined = true) :
    ∃ t, exec (.ret f) s = .next t ∧ t.mux = c ∧ (t.chan c).tadr = r ∧ (t.chan c).stack = l := by
  subst hc
  obtain ⟨hsp, htop, hrest⟩ := ChannelState.stack_eq_cons hstack
  refine ⟨_, exec_ret_of_pop f hsp (by rw [htop, hr]), rfl, ?_, ?_⟩
  · rw [State.finishTag_tadr, htop]
  · rw [State.finishTag_chan_self]
    exact hrest

end Tags

/-- Settles O18: the two Calls make the list the addresses of the two Continues, second on top, which fills it; each
Return takes one off. -/
theorem nestedCallsReturn : Obligations.NestedCallsReturn := by
  intro f g h k s s1 s2 hsp hcap h1 h2
  have empty := ChannelState.stack_of_zero hsp
  obtain ⟨mux1, cap1, stack1⟩ := exec_call_stack rfl (by simp [empty, hcap]) h1
  rw [hcap] at cap1
  rw [empty] at stack1
  obtain ⟨mux2, cap2, stack2⟩ := exec_call_stack mux1 (by simp [stack1, cap1]) h2
  rw [cap1] at cap2
  rw [stack1] at stack2
  refine ⟨exec_call_full h mux2 (by simp [stack2, cap2]), ?_⟩
  obtain ⟨s3, h3, mux3, tadr3, stack3⟩ := exec_ret_stack h mux2 stack2 rfl
  obtain ⟨s4, h4, -, tadr4, stack4⟩ := exec_ret_stack k mux3 stack3 rfl
  obtain ⟨c1, hc1, tadrC1⟩ := exec_cnt_tadr (s := s) f rfl
  obtain ⟨c2, hc2, tadrC2⟩ := exec_cnt_tadr g mux1
  refine ⟨s3, s4, c1, c2, h3, h4, hc1, hc2, tadr3.trans tadrC2.symm, tadr4.trans tadrC1.symm, ?_⟩
  have depth := (s4.chan s.mux).stack_length
  rw [stack4] at depth
  exact Fin.ext depth.symm

end Sys2Proof.Machine
end

section
/-! PROOFS, the invariant (R102, R100, R107, R134, R87 to R96). What each step leaves of the channel that it writes
keeps `ChannelState.Inv`; what it leaves elsewhere is in the frames of the sections above. -/

namespace Sys2Proof.Machine

/-! ## The invariant of one channel, operation by operation -/

/-- The occupied stack slots are written (R102): `slots` of the invariant. -/
abbrev ChannelState.SlotsWritten (ch : ChannelState) : Prop :=
  (ch.sp ≠ 0 → ch.asr0.defined = true) ∧ (ch.sp = 2 → ch.asr1.defined = true)

section Channel
variable {ch : ChannelState}

/-- A Stopped channel owes only its stack and that nothing is pending. -/
theorem ChannelState.Inv.of_stopped (hp : ch.phase = .stopped) (slots : ch.SlotsWritten) (within : ch.sp ≤ ch.cap)
    (idle : ch.descOpen = false ∧ ch.irqArmed = false ∧ ch.stallRole = .none ∧ ch.stopReq = false) : ch.Inv where
  slots := slots
  within := within
  idle _ := idle
  ready h := absurd hp h
  held h := by rw [hp] at h; cases h
  failed r h := by rw [hp] at h; cases h
  plain h := absurd hp h

/-- A Running channel owes its stack, its registers and that a Normal-mode descriptor is the last. -/
theorem ChannelState.Inv.of_running (hp : ch.phase = .running) (slots : ch.SlotsWritten) (within : ch.sp ≤ ch.cap)
    (ready : ch.qwc.defined = true ∧ (ch.qwc.val ≠ 0#16 → ch.madr.defined = true ∧ ch.descOpen = true))
    (plain : ch.mode = .normal → ch.descOpen = true ∧ ch.endAfter = true) : ch.Inv where
  slots := slots
  within := within
  idle h := by rw [hp] at h; cases h
  ready _ := ready
  held h := by rw [hp] at h; cases h
  failed r h := by rw [hp] at h; cases h
  plain _ := plain

/-- R95, R96: a stop and a report. -/
theorem ChannelState.Inv.halt (h : ch.Inv) : ch.halt.Inv :=
  .of_stopped rfl h.slots h.within ⟨rfl, rfl, rfl, rfl⟩

/-- R88: a slice of a Running channel with quadwords left. -/
theorem ChannelState.Inv.sliced (h : ch.Inv) (hp : ch.phase = .running) (hq : ch.qwc.val ≠ 0#16) (m : Word)
    (q : BitVec 16) : { ch with madr := UReg.written m, qwc := UReg.written q }.Inv := by
  have hactive : ch.phase ≠ .stopped := by simp [hp]
  have hopen : ch.descOpen = true := ((h.ready hactive).2 hq).2
  exact .of_running hp h.slots h.within ⟨rfl, fun _ => ⟨rfl, hopen⟩⟩ (h.plain hactive)

/-- R93: the stall suspension of a checked drain with quadwords left. -/
theorem ChannelState.Inv.suspended (h : ch.Inv) (hp : ch.phase = .running) (hrole : ch.stallRole = .check)
    (hq : ch.qwc.val ≠ 0#16) : { ch with phase := .suspended }.Inv where
  slots := h.slots
  within := h.within
  idle := nofun
  ready _ := h.ready (by simp [hp])
  held _ := ⟨hrole, hq⟩
  failed := nofun
  plain _ := h.plain (by simp [hp])

/-- R94: the resume. -/
theorem ChannelState.Inv.resumed (h : ch.Inv) (hp : ch.phase = .suspended) : { ch with phase := .running }.Inv :=
  .of_running rfl h.slots h.within (h.ready (by simp [hp])) (h.plain (by simp [hp]))

/-- R90: the completion. -/
theorem ChannelState.Inv.completed (h : ch.Inv) :
    { ch with descOpen := false, irqArmed := false, phase := .stopped, stallRole := .none, stopReq := false }.Inv :=
  .of_stopped rfl h.slots h.within ⟨rfl, rfl, rfl, rfl⟩

/-- R89, R92: a descriptor end that does not complete is one of a chain, since a Normal-mode descriptor is the last. -/
theorem ChannelState.Inv.descClosed (h : ch.Inv) (hp : ch.phase = .running) (hq : ch.qwc.val = 0#16) {g : Config}
    (hdone : ch.isDone g = false) : { ch with descOpen := false, irqArmed := false }.Inv := by
  have hactive : ch.phase ≠ .stopped := by simp [hp]
  have hmore : ch.endAfter = false := by
    rw [ChannelState.isDone, Bool.or_eq_false_iff] at hdone
    exact hdone.1
  refine .of_running hp h.slots h.within ⟨(h.ready hactive).1, fun hne => absurd hq hne⟩ fun hmode => ?_
  have hlast := (h.plain hactive hmode).2
  rw [hmore] at hlast; cases hlast

/-- R129: a stop request to a Running or a Suspended channel. -/
theorem ChannelState.Inv.stopRequested (h : ch.Inv) (hp : ch.phase = .running ∨ ch.phase = .suspended) :
    { ch with stopReq := true }.Inv where
  slots := h.slots
  within := h.within
  idle hs := by rcases hp with hp | hp <;> cases hp.symm.trans hs
  ready := h.ready
  held := h.held
  failed r hr := by rcases hp with hp | hp <;> cases hp.symm.trans hr
  plain := h.plain

/-- R129, R131: the host writes registers of a Stopped channel, and leaves no stack slot Undefined that was written. -/
theorem ChannelState.Inv.stoppedWrite (h : ch.Inv) (hp : ch.phase = .stopped) (r : Chcr) (m : UReg 32) (q : UReg 16)
    (ta a0 a1 : UReg 32) (h0 : ch.asr0.defined = true → a0.defined = true)
    (h1 : ch.asr1.defined = true → a1.defined = true) :
    { ch with chcr := r, madr := m, qwc := q, tadr := ta, asr0 := a0, asr1 := a1 }.Inv :=
  .of_stopped hp ⟨fun hs => h0 (h.slots.1 hs), fun hs => h1 (h.slots.2 hs)⟩ h.within (h.idle hp)

end Channel

/-! ## The invariant of the state under the shared operations -/

theorem State.Inv.setChan {s : State} (h : s.Inv) (c : Chan) {x : ChannelState} (hx : x.Inv) : (s.setChan c x).Inv where
  mem := h.mem
  spr := h.spr
  stat := h.stat
  pcr := h.pcr
  chan d := by
    rw [State.setChan_chan]
    split
    · exact hx
    · exact h.chan d

theorem State.Inv.raise {s : State} (h : s.Inv) (b : StatusBit) : (s.raise b).Inv :=
  ⟨h.mem, h.spr, statRaise_masked h.stat b, h.pcr, h.chan⟩

theorem State.Inv.writeBytes {s : State} (h : s.Inv) (r : Region) (a : BitVec 31) (bs : List Byte) :
    (s.writeBytes r a bs).Inv := by
  obtain ⟨hmem, hspr⟩ := s.writeBytes_wf h.mem h.spr r a bs
  refine ⟨hmem, hspr, ?_, ?_, fun d => ?_⟩
  · rw [s.writeBytes_dStat]; exact h.stat
  · rw [s.writeBytes_dPcr]; exact h.pcr
  · rw [s.writeBytes_chan]; exact h.chan d

theorem RaisesAtMost.masked {d d' : Word} (h : RaisesAtMost d d') (hd : d &&& (statusBits ||| maskBits) = d) :
    d' &&& (statusBits ||| maskBits) = d' := by
  rcases h with rfl | ⟨b, rfl⟩
  · exact hd
  · exact statRaise_masked hd b

/-! ## A step of a channel -/

/-- What the tag step finds of its channel where it is enabled (R85, R91): it stands between two descriptors of a
chain. -/
structure ChannelState.BetweenTags (ch : ChannelState) : Prop where
  running : ch.phase = .running
  chain : ch.mode = .chain
  empty : ch.qwc.val = 0#16
  closed : ch.descOpen = false
  wanted : ch.stopReq = false

theorem State.betweenTags_of_ready {s : State} {c : Chan} (h : s.stepReady c .tagStep = some true) :
    (s.chan c).BetweenTags := by
  obtain ⟨running, chain, -, empty, closed, wanted⟩ := (s.stepReady_tagStep c).1 h
  exact ⟨running, chain, empty, closed, wanted⟩

/-- R137, R138: a channel error between two tags. -/
theorem ChannelState.Inv.errored {ch : ChannelState} (h : ch.Inv) (hb : ch.BetweenTags) (r : ErrorReason) :
    { ch with phase := .errored r }.Inv where
  slots := h.slots
  within := h.within
  idle := nofun
  ready _ := h.ready (by simp [hb.running])
  held := nofun
  failed _ _ := ⟨hb.chain, hb.empty, hb.closed, hb.wanted⟩
  plain _ := h.plain (by simp [hb.running])

theorem State.channelError_keeps_chan {s : State} {c : Chan} (h : (s.chan c).Inv) (hb : (s.chan c).BetweenTags)
    (r : ErrorReason) : ((s.channelError c r).chan c).Inv := by
  rw [State.channelError_chan_self]
  exact h.errored hb r

/-- R72, R74: a tag opens a descriptor with its MADR written, keeps the stack's bounds and writes the slot it counts, or
is a channel error. -/
theorem exec_tag_keeps_chan {k : TagKind} {f : TagFields} {s t : State} (hi : (s.chan s.mux).Inv)
    (hb : (s.chan s.mux).BetweenTags) (h : exec (Instr.ofTag f k) s = .next t) : (t.chan s.mux).Inv := by
  rcases exec_tag_next h with ⟨ch, rfl, hmadr, ⟨_, _, _, _, _, _, _, hch⟩, hslot0, hslot1, hcap⟩ | ⟨r, rfl, -⟩
  · have hphase : ch.phase = .running := by rw [hch]; exact hb.running
    have hmode : ch.mode = .chain := by rw [hch]; exact hb.chain
    have slots : ch.SlotsWritten :=
      ⟨fun h0 => hslot0 h0 (or_iff_not_imp_left.2 hi.slots.1),
        fun h2 => hslot1 h2 (or_iff_not_imp_left.2 fun hs => hi.slots.2 (not_not.1 hs))⟩
    rw [State.finishTag_chan_self]
    refine .of_running hphase slots (hcap hi.within) ⟨rfl, fun _ => ⟨hmadr, rfl⟩⟩ fun hnormal => ?_
    rw [show ch.mode = .normal from hnormal] at hmode; cases hmode
  · exact State.channelError_keeps_chan hi hb r

theorem tagStep_keeps_chan {s t : State} {c : Chan} (hi : (s.chan c).Inv) (hb : (s.chan c).BetweenTags)
    (h : s.tagStep c = .next t) : (t.chan c).Inv := by
  rcases tagStep_next h with rfl | ⟨k, f, he⟩ | ⟨m, rfl⟩
  · exact State.channelError_keeps_chan hi hb _
  · exact exec_tag_keeps_chan (s := s.fetched c) hi hb he
  · exact State.channelError_keeps_chan (s := s.fetched c) hi hb _

/-- R85: every enabled step of a channel keeps the channel's invariant. -/
theorem takeStep_keeps_chan {s t : State} {c : Chan} {k : ChanStep} (hi : (s.chan c).Inv)
    (hr : s.stepReady c k = some true) (h : s.takeStep c k = .next t) : (t.chan c).Inv := by
  cases k with
  | slice n =>
    obtain ⟨hp, -, hn, hle, -⟩ := (s.stepReady_slice c).1 hr
    obtain ⟨-, hself, -⟩ := State.slice_next h
    rw [hself]
    exact hi.sliced hp (ne_zero_of_toNat_pos (Nat.lt_of_lt_of_le hn hle)) _ _
  | suspend =>
    obtain ⟨hp, -, hq, hl⟩ := (s.stepReady_suspend c).1 hr
    have hrole : (s.chan c).stallRole = .check := by
      by_contra hne
      rw [stallLimit_unchecked _ hne] at hl; cases hl
    cases h
    rw [State.suspendStep_chan_self]
    exact hi.suspended hp hrole hq
  | resume =>
    obtain ⟨hp, -⟩ := (s.stepReady_resume c).1 hr
    cases h
    rw [State.resumeStep_chan_self]
    exact hi.resumed hp
  | descEnd =>
    obtain ⟨hp, -, hq, -⟩ := (s.stepReady_descEnd c).1 hr
    cases h
    rw [State.descEnd_chan_self]
    split
    · exact hi.completed
    · next hdone => exact hi.descClosed hp hq (Bool.eq_false_iff.2 hdone)
  | tagStep => exact tagStep_keeps_chan hi (State.betweenTags_of_ready hr) h
  | stop => cases h; rw [State.stopStep_chan_self]; exact hi.halt
  | report => cases h; rw [State.report_chan_self]; exact hi.halt

/-- Outside its channel a step writes D_STAT, SADR and D_STADR alone, and D_STAT by a raise at most. -/
theorem takeStep_keeps_inv {s t : State} {c : Chan} {k : ChanStep} (hi : s.Inv) (hr : s.stepReady c k = some true)
    (h : s.takeStep c k = .next t) : t.Inv where
  mem := (congrArg Memory.wf (congrFun (takeStep_memory h) .memory)).trans hi.mem
  spr := (congrArg Memory.wf (congrFun (takeStep_memory h) .scratchPad)).trans hi.spr
  stat := (takeStep_dStat h).masked hi.stat
  pcr := by
    rw [(takeStep_frame h).1.control.dPcr]
    exact hi.pcr
  chan d := by
    by_cases hd : d = c
    · subst hd
      exact takeStep_keeps_chan (hi.chan d) hr h
    · rw [(takeStep_frame h).1.others d hd]
      exact hi.chan d

theorem chanTurn_keeps_inv {s t : State} {c : Chan} {k : ChanStep} (hi : s.Inv) (h : s.chanTurn c k = .next t) :
    t.Inv := by
  rcases chanTurn_next h with rfl | ⟨-, hr, hk⟩
  · exact hi
  · exact takeStep_keeps_inv hi hr hk

/-! ## A host access -/

/-- R87: a start has checked the registers that it goes on with. -/
theorem State.startChannel_keeps_inv {s t : State} {c : Chan} (hi : s.Inv) (h : s.startChannel c = .next t) :
    t.Inv := by
  obtain ⟨hq, ⟨hmadr, rfl⟩ | ⟨hmadr, rfl⟩⟩ := State.startChannel_next h
  · exact hi.setChan c (.of_running rfl (hi.chan c).slots (hi.chan c).within ⟨hq, fun _ => ⟨hmadr, rfl⟩⟩
      fun _ => ⟨rfl, rfl⟩)
  · exact hi.setChan c (.of_running rfl ⟨fun hne => absurd rfl hne, nofun⟩ (Fin.zero_le _)
      ⟨hq, fun hne => ⟨hmadr hne, bne_iff_ne.2 hne⟩⟩ nofun)

/-- R128 to R135: every register access keeps the invariant. -/
theorem AccessDone.keeps_inv {s t : State} (h : AccessDone s t) (hi : s.Inv) : t.Inv := by
  cases h with
  | same h => rw [h]; exact hi
  | answered _ _ h | sadr _ _ h | ctrl _ h | stadr _ h => rw [h]; exact ⟨hi.mem, hi.spr, hi.stat, hi.pcr, hi.chan⟩
  | stat v h => rw [h]; exact ⟨hi.mem, hi.spr, statWrite_masked hi.stat v, hi.pcr, hi.chan⟩
  | pcr v h =>
    rw [h]
    exact ⟨hi.mem, hi.spr, hi.stat, by rw [BitVec.and_assoc, BitVec.and_self], hi.chan⟩
  | channel c x h was =>
    have hc := hi.chan c
    rcases was with ⟨hp, r, m, q, ta, a0, a1, rfl, h0, h1⟩ | ⟨hp, hstart⟩ | ⟨hp, rfl⟩
    · rw [h]
      exact hi.setChan c (hc.stoppedWrite hp r m q ta a0 a1 h0 h1)
    · exact State.startChannel_keeps_inv (hi.setChan c (hc.stoppedWrite hp _ _ _ _ _ _ id id)) hstart
    · rw [h]
      exact hi.setChan c (hc.stopRequested hp)

theorem hostTurn_keeps_inv {s t : State} {a : HostAccess} (hi : s.Inv) (h : s.hostTurn a = .next t) : t.Inv := by
  obtain ⟨-, r, -, he⟩ := hostTurn_next h
  exact (exec_access_next he).keeps_inv hi

/-! ## A turn and a step -/

theorem turn_keeps_inv {s t : State} {u : Turn} (hi : s.Inv) (h : s.turn u = .next t) : t.Inv := by
  cases u with
  | chan c k => exact chanTurn_keeps_inv hi h
  | host a => exact hostTurn_keeps_inv hi h
  | busErrorIn => cases h; exact hi.raise .beis
  | mfifoEmptyIn => cases h; exact hi.raise .meis
  | memWrite r a bs => cases h; exact hi.writeBytes r a bs

/-- The invariant reads neither the schedule nor the count of draws. -/
theorem State.Inv.withChoice {s : State} (h : s.Inv) (ts : List Turn) (n : Nat) :
    State.Inv { s with schedule := ts, draws := n } :=
  ⟨h.mem, h.spr, h.stat, h.pcr, h.chan⟩

/-- Settles O51: a step is a turn of the schedule, a channel's step that the multiplexer chose, or none, and every
agent's turn keeps the invariant. -/
theorem stepKeepsInvariant : Obligations.StepKeepsInvariant := by
  intro s t hi h
  obtain ⟨-, -, ⟨u, ts, -, hu⟩ | ⟨-, c, k, -, hk⟩ | ⟨-, -, rfl⟩⟩ := step_next h
  · exact turn_keeps_inv (hi.withChoice ts s.draws) hu
  · exact chanTurn_keeps_inv (hi.withChoice s.schedule (s.draws + 1)) hk
  · exact hi

end Sys2Proof.Machine
end

section
/-! PROOFS, the status/mask register (spec/44_status_mask.md). The host's write and read of D_STAT, and a raise beside a
write: each bit goes its own way. -/

namespace Sys2Proof.Machine

/-! ## A host write and a host read (R109, R110) -/

theorem exec_writeDStat (v : Word) (s : State) :
    exec (.writeDStat v) s = .next { s with dStat := statWrite s.dStat v } := rfl

theorem exec_readDStat (s : State) : exec .readDStat s = .next (s.answer (statRead s.dStat)) := rfl

/-- Settles O29: the write stores one word in D_STAT, whose bits `statWrite_getLsbD` gives. -/
theorem DStat.statWrite : Obligations.StatWrite := by
  intro v s
  exact ⟨_, exec_writeDStat v s, rfl, statWrite_getLsbD s.dStat v⟩

/-- Settles O30: the read answers the host one word, whose bits `statRead_getLsbD` gives. -/
theorem DStat.statRead : Obligations.StatRead := by
  intro s
  exact ⟨_, exec_readDStat s, rfl, statRead_getLsbD s.dStat⟩

/-! ## A raise and a host write in either order (R113) -/

theorem StatusBit.pos_lt (b : StatusBit) : b.pos < 32 := by
  have hpos := b.pos_range
  omega

/-- R108 at the raised bit. -/
@[simp] theorem statRaise_getLsbD_pos (d : Word) (b : StatusBit) : (statRaise d b).getLsbD b.pos = true := by
  rw [statRaise_getLsbD d b _ b.pos_lt, decide_eq_true rfl, Bool.true_or]

/-- R108 at every other bit. -/
theorem statRaise_getLsbD_of_ne (d : Word) {b : StatusBit} {i : Nat} (hi : i < 32) (hne : i ≠ b.pos) :
    (statRaise d b).getLsbD i = d.getLsbD i := by
  rw [statRaise_getLsbD d b i hi, decide_eq_false hne, Bool.false_or]

/-- R109 at a status bit: a 1 clears it. -/
theorem statWrite_getLsbD_pos (d v : Word) (b : StatusBit) :
    (statWrite d v).getLsbD b.pos = (d.getLsbD b.pos && !v.getLsbD b.pos) := by
  rw [statWrite_getLsbD d v _ b.pos_lt, if_pos b.pos_range]

/-- R109: what a write makes of a bit depends on that bit of D_STAT alone. -/
theorem statWrite_getLsbD_congr {d d' : Word} (v : Word) {i : Nat} (hi : i < 32) (h : d.getLsbD i = d'.getLsbD i) :
    (statWrite d v).getLsbD i = (statWrite d' v).getLsbD i := by
  rw [statWrite_getLsbD d v i hi, statWrite_getLsbD d' v i hi, h]

/-- Settles O37: at the raised bit the later of the two decides; any other bit the raise leaves alone, before the write
as after it. -/
theorem raiseSurvivesOtherWrites : Obligations.RaiseSurvivesOtherWrites := by
  intro d v b
  refine ⟨statRaise_getLsbD_pos _ b, ?_, fun i hi hne => ?_⟩
  · rw [statWrite_getLsbD_pos, statRaise_getLsbD_pos, Bool.true_and]
  · calc (statRaise (statWrite d v) b).getLsbD i
        = (statWrite d v).getLsbD i := statRaise_getLsbD_of_ne _ hi hne
      _ = (statWrite (statRaise d b) v).getLsbD i :=
          statWrite_getLsbD_congr v hi (statRaise_getLsbD_of_ne d hi hne).symm

end Sys2Proof.Machine
end

section
/-! PROOFS, the Controller (spec/45_controller.md). The interrupt output, the external inputs, the decoded host access,
the turns that pass, the boundary of a drain's slice, and the step that nothing is left for. -/

namespace Sys2Proof.Machine

open Sys2Proof.Claims

/-! ## The interrupt output (R107, R124) -/

/-- R7, R15: every number below 10 is a channel's. -/
theorem exists_chan_num {i : Nat} (h : i < 10) : ∃ c : Chan, c.num = i := by
  have all : ∀ j : Fin 10, ∃ c ∈ Chan.all, c.num = j := by decide
  obtain ⟨c, -, hc⟩ := all ⟨i, h⟩
  exact ⟨c, hc⟩

/-- R107: where the implemented status bits stand. -/
theorem exists_statusBit_pos_iff {i : Nat} : (∃ b : StatusBit, b.pos = i) ↔ i ≤ 9 ∨ 13 ≤ i ∧ i ≤ 15 := by
  refine ⟨fun ⟨b, hb⟩ => hb ▸ b.pos_range, fun h => ?_⟩
  rcases h with hcis | ⟨hlow, hhigh⟩
  · obtain ⟨c, rfl⟩ := exists_chan_num (Nat.lt_succ_of_le hcis)
    exact ⟨.cis c, rfl⟩
  · obtain rfl | rfl | rfl : i = 13 ∨ i = 14 ∨ i = 15 := by omega
    · exact ⟨.sis, rfl⟩
    · exact ⟨.meis, rfl⟩
    · exact ⟨.beis, rfl⟩

/-- Settles O36: `irqLevel_iff` speaks of status bits, the statement of the positions where they stand. -/
theorem interruptOutput : Obligations.InterruptOutput := by
  intro s
  simp only [State.dmacIrq, irqLevel_iff, ← exists_statusBit_pos_iff]
  constructor
  · rintro ⟨b, hstat, hmask⟩
    exact ⟨b.pos, ⟨b, rfl⟩, hstat, hmask⟩
  · rintro ⟨_, ⟨b, rfl⟩, hstat, hmask⟩
    exact ⟨b, hstat, hmask⟩

/-! ## The external inputs (R125) -/

/-- R108: a raise sets its own bit of D_STAT. -/
theorem State.raise_statSet (s : State) (b : StatusBit) : StatSet b.pos s (s.raise b) :=
  statRaise_getLsbD s.dStat b

/-- Settles O35: each input's turn is the raise of its bit, and a raise writes D_STAT alone. -/
theorem externalInputsRaise : Obligations.ExternalInputsRaise := by
  intro s hu
  refine ⟨⟨s.raise .beis, ?beis, s.raise_statSet .beis, rfl⟩, ⟨s.raise .meis, ?meis, s.raise_statSet .meis, rfl⟩⟩
  case beis => exact step_given hu .busErrorIn
  case meis => exact step_given hu .mfifoEmptyIn

/-! ## The decoded host access (R118) -/

/-- R118: a host's turn runs the access to the register that its address is routed to. -/
theorem State.hostTurn_eq_exec {s : State} {addr : Word} {r : RegName} (a : AccessKind) (ha : addr.toNat % 4 = 0)
    (hr : s.cfg.find addr = some r) : s.hostTurn ⟨addr, .w32, a⟩ = exec (Instr.ofAccess r a) s := by
  rw [State.hostTurn, decodeAccess_eq_ok a ha hr]

/-- Settles O38: the given turn is the host's, and its access decodes. -/
theorem stepRunsDecodedAccess : Obligations.StepRunsDecodedAccess := by
  rintro s ⟨addr, width, kind⟩ r hu hw ha hr
  obtain rfl : width = .w32 := hw
  rw [step_given hu]
  exact State.hostTurn_eq_exec kind ha hr

/-! ## The turns that pass (R85, R116) -/

/-- R116: a channel is enabled where it is not held. -/
theorem chanOn_iff (s : State) (c : Chan) :
    s.chanOn c = true ↔
      s.dCtrl.getLsbD 0 = true ∧ (s.dPcr.getLsbD 31 = false ∨ s.dPcr.getLsbD (16 + c.num) = true) := by
  rw [← Bool.not_eq_false, chanOn_eq_false_iff, not_or, not_and_or, Bool.not_eq_false, Bool.not_eq_true,
    Bool.not_eq_false]

theorem State.chanTurn_held {s : State} {c : Chan} (h : s.chanOn c = false) (k : ChanStep) :
    s.chanTurn c k = .next s := by
  rw [State.chanTurn, h]
  rfl

theorem State.chanTurn_stopped {s : State} {c : Chan} (h : (s.chan c).phase = .stopped) (k : ChanStep) :
    s.chanTurn c k = .next s := by
  rw [State.chanTurn, s.stepReady_stopped c h k, ite_self]

/-- Settles O46: D_CTRL and D_PCR hold the channel before its step is asked for, and a Stopped one has no step to
take. -/
theorem heldAndStoppedChannelsWait : Obligations.HeldAndStoppedChannelsWait := by
  intro s c
  refine ⟨chanOn_iff s c, fun k hu h => ?_⟩
  rw [step_given hu]
  rcases or_assoc.2 h with held | stopped
  · exact State.chanTurn_held ((chanOn_eq_false_iff s c).2 held) k
  · exact State.chanTurn_stopped stopped k

/-! ## The boundary of a drain's slice (R88, R122) -/

/-- R122: what the stall limit admits to a checked descriptor ends at the boundary at most. -/
theorem addr_le_boundary_of_stallLimit {ch : ChannelState} {d : UReg 31} {l n : Nat} (hrole : ch.stallRole = .check)
    (hl : stallLimit ch d = some l) (h1 : 1 ≤ n) (hn : n ≤ l) : addrOf ch.madr.val + 16 * n ≤ d.val.toNat := by
  obtain ⟨-, -, rfl⟩ := (stallLimit_check hrole).1 hl
  rw [addrOf]
  omega

/-- R70, R88: a transfer address that stays below 2^31 moves on without a wrap. -/
theorem addrOf_advance {w : Word} {n : Nat} (h : addrOf w + 16 * n < 2 ^ 31) :
    addrOf (advance w n) = addrOf w + 16 * n := by
  rw [addrOf, ← addrBits_toNat, addrBits_advance, BitVec.toNat_ofNat, Nat.mod_eq_of_lt h]

/-- R88, R121: a slice of a descriptor that does not publish moves MADR and keeps D_STADR. -/
theorem State.slice_next_of_check {s t : State} {c : Chan} {n : Nat} (hrole : (s.chan c).stallRole = .check)
    (h : s.slice c n = .next t) :
    (t.chan c).madr.val = advance (s.chan c).madr.val n ∧ t.dStadr = s.dStadr := by
  obtain ⟨-, hself, -, -⟩ := State.slice_next h
  have kept : t.dStadr = s.dStadr := (slice_frame h).2.resolve_right (by simp [hrole])
  exact ⟨by rw [hself]; rfl, kept⟩

/-- Settles O42: a turn that changes the state took the slice, so the stall limit admitted it; the boundary has 31
bits, so the address does not wrap on its way there. -/
theorem drainNeverPassesBoundary : Obligations.DrainNeverPassesBoundary := by
  intro s t c n hu hrole _ h hne
  rw [step_given hu] at h
  obtain ⟨-, hready, hslice⟩ := (chanTurn_next h).resolve_left hne
  obtain ⟨-, -, h1, -, l, hl, hn⟩ := (s.stepReady_slice c).1 hready
  have below := addr_le_boundary_of_stallLimit hrole hl h1 hn
  obtain ⟨hmadr, hstadr⟩ := State.slice_next_of_check hrole hslice
  have moved := addrOf_advance (below.trans_lt s.dStadr.val.isLt)
  rw [hmadr, hstadr, moved]
  exact ⟨below, rfl⟩

/-! ## The step that nothing is left for (R41, R119) -/

/-- R119, said of each channel. -/
theorem State.final_iff (s : State) :
    s.final = true ↔ (∀ c, (s.chan c).phase = .stopped) ∧ s.refused = false ∧ s.faulted = false := by
  have everyChan : (∀ c ∈ Chan.all, (s.chan c).phase = .stopped) ↔ ∀ c, (s.chan c).phase = .stopped :=
    forall_congr' fun c => forall_prop_of_true (chan_mem_all c)
  simp only [State.final, Bool.and_eq_true, Bool.not_eq_true', List.all_eq_true, beq_iff_eq, everyChan, and_assoc]

/-- R85, R117: where every channel is Stopped the multiplexer has nothing to choose. -/
theorem State.freeTurn_of_stopped {s : State} (h : ∀ c, (s.chan c).phase = .stopped) : s.freeTurn = none := by
  cases hfree : s.freeTurn with
  | none => rfl
  | some u =>
    obtain ⟨c, k, -, -, hready⟩ := freeTurn_eq_some hfree
    exact absurd (s.stepReady_stopped c (h c) k) hready

/-- R41: without a turn to come and a channel step to choose, a step waits. -/
theorem step_waits {s : State} (hr : s.refused = false) (hf : s.faulted = false) (hs : s.schedule = [])
    (hfree : s.freeTurn = none) : step s = .next s := by
  simp [step, hr, hf, hs, hfree]

/-- Settles O60: a final state bears no mark, and its channels, all Stopped, give the multiplexer nothing to choose. -/
theorem finalStateWaits : Obligations.FinalStateWaits := by
  intro s hfinal hs
  obtain ⟨stopped, hr, hf⟩ := s.final_iff.1 hfinal
  exact step_waits hr hf hs (State.freeTurn_of_stopped stopped)

end Sys2Proof.Machine
end

section
/-! PROOFS, the register interface (spec/46_register_interface.md). What each read answers and each write stores, phase
by phase, and which accesses are refused. -/

namespace Sys2Proof.Machine

open Sys2Proof.Claims

/-! ## The read of CHCR (R128) -/

/-- R128: the layout of a read of CHCR, bit by bit. -/
theorem ChannelState.chcrRead_getLsbD (ch : ChannelState) {i : Nat} (hi : i < 32) :
    ch.chcrRead.getLsbD i =
      if i = 0 then ch.chcr.dir
      else if i = 1 then false
      else if i < 4 then ch.chcr.mod.getLsbD (i - 2)
      else if i < 6 then ch.chcr.asp.getLsbD (i - 4)
      else if i = 6 then ch.chcr.tte
      else if i = 7 then ch.chcr.tie
      else if i = 8 then ch.active
      else if i < 16 then false
      else ch.chcr.tag.getLsbD (i - 16) := by
  simp only [ChannelState.chcrRead, BitVec.getLsbD_or, BitVec.getLsbD_shiftLeft, BitVec.getLsbD_setWidth,
    BitVec.getLsbD_ofBool]
  interval_cases i <;> simp [BitVec.getLsbD_of_ge]

/-- R128: the fields of more than one bit; bits 15:9 do not exist. -/
theorem ChannelState.chcrRead_fields (ch : ChannelState) :
    ch.chcrRead.extractLsb' 2 2 = ch.chcr.mod ∧ ch.chcrRead.extractLsb' 4 2 = ch.chcr.asp ∧
      ch.chcrRead.extractLsb' 9 7 = 0#7 ∧ ch.chcrRead.extractLsb' 16 16 = ch.chcr.tag := by
  refine ⟨?mod, ?asp, ?reserved, ?tag⟩
  all_goals
    apply BitVec.eq_of_getLsbD_eq
    intro i hi
    rw [BitVec.getLsbD_extractLsb', ch.chcrRead_getLsbD (by omega)]
    interval_cases i <;> rfl

/-- R128: STR is the phase's, whatever the written fields. -/
theorem ChannelState.chcrRead_str (ch : ChannelState) : ch.chcrRead.getLsbD 8 = true ↔ ch.phase ≠ .stopped := by
  rw [ch.chcrRead_getLsbD (by decide)]
  exact active_iff ch

/-- Settles O19: the read answers the host one word, whose fields the layout gives. -/
theorem chcrRead : Obligations.ChcrRead := by
  intro c s
  have bit (i : Nat) (hi : i < 32) := (s.chan c).chcrRead_getLsbD hi
  obtain ⟨mod, asp, reserved, tag⟩ := (s.chan c).chcrRead_fields
  exact ⟨s.answer (s.chan c).chcrRead, exec_read_chcr c s, rfl, bit 0 (by decide), bit 1 (by decide), mod, asp,
    bit 6 (by decide), bit 7 (by decide), (s.chan c).chcrRead_str, reserved, tag⟩

/-! ## The reads of registers that may be Undefined (R33, R130) -/

/-- R130: a read of a register of at most 32 bits, in every phase. -/
theorem readReg_answers {w : Nat} (hw : w ≤ 32) (r : UReg w) (s : State) :
    ∃ t, readReg r s = .next t ∧ OnlyAnswer s t ∧ t.hostData.toNat < 2 ^ w ∧
      (r.defined = true → t.hostData.toNat = r.val.toNat ∧ t.draws = s.draws) := by
  obtain ⟨only, below, value⟩ := s.answerReg_spec r
  exact ⟨s.answerReg r, rfl, only, below, value hw⟩

/-- R130: a read of a register of all 32 bits answers the very value. -/
theorem readReg_answers_word (r : UReg 32) (s : State) :
    ∃ t, readReg r s = .next t ∧ OnlyAnswer s t ∧
      (r.defined = true → t.hostData = r.val ∧ t.draws = s.draws) := by
  obtain ⟨t, ht, only, -, value⟩ := readReg_answers le_rfl r s
  exact ⟨t, ht, only, fun hd => (value hd).imp_left BitVec.eq_of_toNat_eq⟩

/-- Settles O20: each of the five meanings is the read of its register; QWC has 16 bits. -/
theorem channelRegisterRead : Obligations.ChannelRegisterRead := by
  intro c s
  simp only [exec_read_madr, exec_read_qwc, exec_read_tadr, exec_read_asr0, exec_read_asr1]
  exact ⟨readReg_answers_word _ s, readReg_answers (by decide) _ s, readReg_answers_word _ s,
    readReg_answers_word _ s, readReg_answers_word _ s⟩

theorem exec_readD8Sadr (s : State) : exec .readD8Sadr s = readReg s.sadr8 s := rfl

theorem exec_readD9Sadr (s : State) : exec .readD9Sadr s = readReg s.sadr9 s := rfl

/-- Settles O21: SADR has 14 bits (R22). -/
theorem sadrRead : Obligations.SadrRead := by
  intro s
  rw [exec_readD8Sadr, exec_readD9Sadr]
  exact ⟨readReg_answers (by decide) s.sadr8 s, readReg_answers (by decide) s.sadr9 s⟩

/-! ## The writes of channel registers (R131) -/

/-- Settles O22: each of the five meanings stores its register in the Stopped channel. -/
theorem channelRegisterWrite : Obligations.ChannelRegisterWrite := by
  intro c v s hp
  rw [← setWidth_eq_ofNat, exec_write_madr, exec_write_qwc, exec_write_tadr, exec_write_asr0, exec_write_asr1]
  exact ⟨writeStopped_stopped hp _, writeStopped_stopped hp _, writeStopped_stopped hp _, writeStopped_stopped hp _,
    writeStopped_stopped hp _⟩

theorem ChannelState.active_of_stopped {ch : ChannelState} (h : ch.phase = .stopped) : ch.active = false := by
  rw [← Bool.not_eq_true, active_iff, not_not, h]

theorem exec_writeD8Sadr (v : Word) (s : State) :
    exec (.writeD8Sadr v) s =
      if (s.chan .fromSpr).active then .refused .writeWhileActive
      else .next { s with sadr8 := UReg.written (v.setWidth 14) } := rfl

theorem exec_writeD9Sadr (v : Word) (s : State) :
    exec (.writeD9Sadr v) s =
      if (s.chan .toSpr).active then .refused .writeWhileActive
      else .next { s with sadr9 := UReg.written (v.setWidth 14) } := rfl

/-- Settles O23: a Stopped channel is not active, so the write stores. -/
theorem sadrWrite : Obligations.SadrWrite := by
  intro v s
  rw [← setWidth_eq_ofNat, exec_writeD8Sadr, exec_writeD9Sadr]
  refine ⟨fun hp => ?sadr8, fun hp => ?sadr9⟩
  case sadr8 => rw [ChannelState.active_of_stopped hp]; rfl
  case sadr9 => rw [ChannelState.active_of_stopped hp]; rfl

/-! ## The writes of CHCR, phase by phase (R129) -/

section Chcr
variable {s : State} {c : Chan} {v : Word}

theorem exec_write_chcr_configures (hp : (s.chan c).phase = .stopped) (hv : v.getLsbD 8 = false) :
    exec (Instr.chanWrite v c .chcr) s = .next (s.configured c v) := by
  rw [exec_write_chcr]
  simp only [writeChcr, hp, hv, Bool.false_eq_true, if_false, State.configured]

theorem exec_write_chcr_requestsStop (hp : (s.chan c).phase = .running ∨ (s.chan c).phase = .suspended)
    (hv : v.getLsbD 8 = false) :
    exec (Instr.chanWrite v c .chcr) s = .next (s.setChan c { s.chan c with stopReq := true }) := by
  rw [exec_write_chcr]
  rcases hp with hp | hp <;> simp only [writeChcr, hp, hv, Bool.false_eq_true, if_false]

theorem exec_write_chcr_refused (hp : (s.chan c).phase = .running ∨ (s.chan c).phase = .suspended)
    (hv : v.getLsbD 8 = true) : exec (Instr.chanWrite v c .chcr) s = .refused .writeWhileActive := by
  rw [exec_write_chcr]
  rcases hp with hp | hp <;> simp only [writeChcr, hp, hv, if_true]

/-- R129: an Errored channel ignores the write, STR included. -/
theorem exec_write_chcr_errored {e : ErrorReason} (hp : (s.chan c).phase = .errored e) :
    exec (Instr.chanWrite v c .chcr) s = .next s := by
  rw [exec_write_chcr]
  simp only [writeChcr, hp]

/-- R131: while the channel is active a write of any of its registers but CHCR is refused. -/
theorem exec_write_active {r : ChanReg} (hr : r ≠ .chcr) (hp : (s.chan c).phase ≠ .stopped) :
    exec (Instr.chanWrite v c r) s = .refused .writeWhileActive := by
  cases r with
  | chcr => exact absurd rfl hr
  | madr => exact (exec_write_madr c v s).trans (writeStopped_active hp _)
  | qwc => exact (exec_write_qwc c v s).trans (writeStopped_active hp _)
  | tadr => exact (exec_write_tadr c v s).trans (writeStopped_active hp _)
  | asr0 => exact (exec_write_asr0 c v s).trans (writeStopped_active hp _)
  | asr1 => exact (exec_write_asr1 c v s).trans (writeStopped_active hp _)

end Chcr

/-- Settles O24: every write but CHCR's asks whether the channel is active, CHCR's asks which phase it is in. -/
theorem writeWhileActiveRefused : Obligations.WriteWhileActiveRefused := by
  intro c r v s hp
  refine ⟨fun hr => exec_write_active hr hp, ?sadr8, ?sadr9, exec_write_chcr_refused⟩
  case sadr8 => rintro rfl; rw [exec_writeD8Sadr, if_pos ((active_iff _).2 hp)]
  case sadr9 => rintro rfl; rw [exec_writeD9Sadr, if_pos ((active_iff _).2 hp)]

/-- Settles O25, by the write's equation in each phase; the stored configuration is R129's field by field. -/
theorem chcrWriteWithoutStart : Obligations.ChcrWriteWithoutStart := by
  intro c v s
  exact ⟨fun hv hp => exec_write_chcr_configures hp hv, fun hv hp => exec_write_chcr_requestsStop hp hv,
    fun _ hp => exec_write_chcr_errored hp⟩

/-! ## The global registers (R132, R134, R135) -/

theorem exec_readDCtrl (s : State) : exec .readDCtrl s = .next (s.answer (s.dCtrl.setWidth 32)) := rfl

theorem exec_writeDCtrl (v : Word) (s : State) :
    exec (.writeDCtrl v) s =
      if v.extractLsb' 2 2 ≠ 0#2 ∧ s.anyActive then .refused .mfifo else .next { s with dCtrl := v.setWidth 11 } := rfl

theorem anyActive_eq_false_iff (s : State) : s.anyActive = false ↔ ∀ c, (s.chan c).phase = .stopped := by
  rw [← Bool.not_eq_true, anyActive_iff]
  push Not
  rfl

/-- Settles O28: the write asks for MFD and for an active channel, and is refused where it meets both. -/
theorem ctrlAccess : Obligations.CtrlAccess := by
  intro v s
  refine ⟨⟨_, exec_readDCtrl s, rfl, ?read⟩, fun h => ?stored, fun hmfd hactive => ?refused⟩
  case read => exact BitVec.toNat_setWidth_of_le (by decide)
  case stored =>
    have admitted : ¬ (v.extractLsb' 2 2 ≠ 0#2 ∧ s.anyActive = true) := by
      rw [not_and_or, not_not, Bool.not_eq_true, anyActive_eq_false_iff]
      exact h
    rw [exec_writeDCtrl, if_neg admitted, setWidth_eq_ofNat]
  case refused => rw [exec_writeDCtrl, if_pos ⟨hmfd, (anyActive_iff s).2 hactive⟩]

theorem exec_readDPcr (s : State) : exec .readDPcr s = .next (s.answer (s.dPcr &&& pcrBits)) := rfl

/-- R134: which bits of D_PCR exist. -/
theorem pcrBits_getLsbD {i : Nat} (hi : i < 32) :
    pcrBits.getLsbD i = !decide (10 ≤ i ∧ i ≤ 15 ∨ 26 ≤ i ∧ i ≤ 30) := by
  interval_cases i <;> rfl

/-- Settles O31: read and write mask D_PCR with the same bits. -/
theorem pcrAccess : Obligations.PcrAccess := by
  intro v s
  refine ⟨⟨_, exec_readDPcr s, rfl, fun i hi => ?_⟩, rfl⟩
  rw [State.answer_hostData, BitVec.getLsbD_and, pcrBits_getLsbD hi]
  split <;> simp [*]

theorem exec_readDStadr (s : State) : exec .readDStadr s = readReg s.dStadr s := rfl

theorem exec_writeDStadr (v : Word) (s : State) :
    exec (.writeDStadr v) s = .next { s with dStadr := UReg.written (v.setWidth 31) } := rfl

/-- Settles O32: D_STADR is read as the channel registers that may be Undefined are, and has 31 bits (R30). -/
theorem stadrAccess : Obligations.StadrAccess := by
  intro v s
  rw [← setWidth_eq_ofNat, exec_readDStadr]
  exact ⟨readReg_answers (by decide) s.dStadr s, exec_writeDStadr v s⟩

/-! ## The refused accesses (R126, R127) -/

/-- Settles O33: the meaning of each of the five is the refusal, whichever access and state it is given. -/
theorem outOfScopeRegistersRefused : Obligations.OutOfScopeRegistersRefused := by
  intro a s
  exact ⟨rfl, rfl, rfl, rfl, rfl⟩

theorem decodeAccess_eq_accessForm (g : Config) {a : HostAccess} (h : a.width ≠ .w32 ∨ a.addr.toNat % 4 ≠ 0) :
    decodeAccess g a = .error .accessForm := by
  rw [decodeAccess, if_neg]
  rw [accessAligned_iff, not_and_or]
  exact h

theorem decodeAccess_eq_unmappedRegister {g : Config} {a : HostAccess} (hw : a.width = .w32)
    (ha : a.addr.toNat % 4 = 0) (hnone : g.find a.addr = none) : decodeAccess g a = .error .unmappedRegister := by
  rw [decodeAccess, if_pos ⟨hw, (accessAligned_iff _).2 ha⟩, hnone]

/-- R126: a host's turn of another form than 32 bits at a multiple of 4, whatever stands at its address. -/
theorem State.hostTurn_accessForm {s : State} {a : HostAccess} (h : a.width ≠ .w32 ∨ a.addr.toNat % 4 ≠ 0) :
    s.hostTurn a = .refused .accessForm := by
  rw [State.hostTurn, decodeAccess_eq_accessForm s.cfg h]

/-- R127, R118: a host's turn of the right form at an address that is routed to no register. -/
theorem State.hostTurn_unmappedRegister {s : State} {a : HostAccess} (hw : a.width = .w32)
    (ha : a.addr.toNat % 4 = 0) (hnone : s.cfg.find a.addr = none) : s.hostTurn a = .refused .unmappedRegister := by
  rw [State.hostTurn, decodeAccess_eq_unmappedRegister hw ha hnone]

/-- Settles O34: the given turn is the host's, and its access does not decode: by its form, or for want of a
register. -/
theorem accessFormsRefused : Obligations.AccessFormsRefused := by
  intro a s hu
  rw [step_given hu]
  refine ⟨fun hform => ?form, fun hw ha hnone => ?unmapped⟩
  case form => exact State.hostTurn_accessForm hform
  case unmapped => exact State.hostTurn_unmappedRegister hw ha (find_eq_none.2 hnone)

end Sys2Proof.Machine
end

section
/-! PROOFS, exceptions (spec/60_exceptions.md). What the tag step answers at each of its errors, in the order of R144,
and what the other channels see of a channel error. -/

namespace Sys2Proof.Machine

open Sys2Proof.Claims

/-! ## The errors of the tag step (R144, R91) -/

/-- R67: under TTE = 1 a fetched tag whose byte 4, the low byte of its address field, is not at a multiple of 16 does
not decode. -/
theorem decodeRaw_eq_misaligned {bs : List Byte} {dir : Direction} (h : ((bs[4]?).getD 0#8).toNat % 16 ≠ 0) :
    decodeRaw (rawOfBytes bs) dir true = .error .misaligned := by
  obtain ⟨k, hk, -, -⟩ := kindOf_eq_some ((rawOfBytes bs).extractLsb' 28 3) dir
  have illegal : addrLegal (tagInRaw k (rawOfBytes bs)).addr true = false := by
    simpa [addrLegal, tagInRaw, tagOperands] using mt (rawOfBytes_addrLow bs).1 h
  rw [decodeRaw, decodeTag_eq_misaligned hk illegal]

theorem State.readBytes_getD (s : State) (r : Region) (a : Nat) {n j : Nat} (h : j < n) :
    ((s.readBytes r a n)[j]?).getD 0#8 = s.readByte r (a + j) := by
  simp [State.readBytes_eq_map, h]

/-- R36: a tag fetch answers nothing where its 16 bytes pass the region's size. -/
theorem State.memRead16_eq_none {s : State} {r : Region} {a : BitVec 31} (h : regionSize s.cfg r < a.toNat + 16) :
    s.memRead16 r a = none :=
  if_neg (Nat.not_le.2 h)

/-- R36: the size of the region that an address register selects, in the numbers of the statements. -/
theorem regionSize_regionOf (g : Config) (w : Word) :
    regionSize g (regionOf w) = if regOf w then g.sprSize else g.memSize := by
  rw [regionOf_eq, regionSize_ite]

section TagStep
variable {s : State} {c : Chan}

/-- R33, R91: the first error, a TADR never written. -/
theorem tagStep_eq_undefined (hd : (s.chan c).tadr.defined = false) : s.tagStep c = .fault .useOfUndefined := by
  simp [State.tagStep, hd]

/-- R39: the second error, before any read. -/
theorem tagStep_eq_misaligned (hd : (s.chan c).tadr.defined = true) (ha : (s.chan c).tadr.val.toNat % 16 ≠ 0) :
    s.tagStep c = .next (s.channelError c .misalignedAddress) := by
  have unaligned : tagAligned (s.chan c).tadr.val = false := by
    rw [Bool.eq_false_iff, ne_eq, tagAligned_iff]
    exact ha
  simp [State.tagStep, hd, unaligned]

/-- R36, R91: the third error, a fetch that passes the region's size. -/
theorem tagStep_eq_outOfRange (hd : (s.chan c).tadr.defined = true) (ha : tagAligned (s.chan c).tadr.val = true)
    (hread : s.memRead16 (regionOf (s.chan c).tadr.val) (addrBits (s.chan c).tadr.val) = none) :
    s.tagStep c = .fault .tagFetchOutOfRange := by
  simp [State.tagStep, hd, ha, hread]

/-- R91, R58: the fourth error, a tag that was read and does not decode. -/
theorem tagStep_eq_malformed {bs : List Byte} {m : MalformedTag} (hd : (s.chan c).tadr.defined = true)
    (ha : tagAligned (s.chan c).tadr.val = true)
    (hread : s.memRead16 (regionOf (s.chan c).tadr.val) (addrBits (s.chan c).tadr.val) = some bs)
    (hm : decodeRaw (rawOfBytes bs) (effDir s.cfg c (s.chan c).chcr) (s.chan c).chcr.tte = .error m) :
    s.tagStep c = .next ((s.fetched c).channelError c (.malformedTag m)) := by
  simp [State.tagStep, hd, ha, hread, hm]

end TagStep

/-- Settles O40: the tag step is enabled, so the turn is the tag step, which asks for each error after those before it
are ruled out; both channel errors write what `ErrorDone` says, the malformed tag's on the fetched state. -/
theorem tagStepErrorOrder : Obligations.TagStepErrorOrder := by
  intro s c hu ho hp hmode hq hopen hreq
  have ready : s.stepReady c .tagStep = some true :=
    (s.stepReady_tagStep c).2 ⟨hp, hmode, by rw [hq], by rw [hq], hopen, hreq⟩
  rw [step_given_ready hu ho ready, ← regionOf_eq, ← addrBits_eq_ofNat, ← regionSize_regionOf, addrOf,
    ← addrBits_toNat, State.takeStep]
  refine ⟨tagStep_eq_undefined, fun hd ha => ?misaligned, fun hd ha hout => ?outOfRange,
    fun hd ha htte hreach hbyte => ?malformed⟩
  case misaligned => exact ⟨_, tagStep_eq_misaligned hd ha, s.channelError_errorDone c _⟩
  case outOfRange => exact tagStep_eq_outOfRange hd ((tagAligned_iff _).2 ha) (State.memRead16_eq_none hout)
  case malformed =>
    rw [← s.readBytes_getD _ _ (by decide : 4 < 16)] at hbyte
    exact ⟨_, tagStep_eq_malformed hd ((tagAligned_iff _).2 ha) (s.memRead16_eq_some.2 ⟨hreach, rfl⟩)
      (htte ▸ decodeRaw_eq_misaligned hbyte), (s.fetched c).channelError_errorDone c _⟩

/-! ## The other channels after a channel error (R140, R137) -/

section Agree
variable {s t : State} {d : Chan}

/-- R85, R122: whether a channel's step is enabled is read off that channel and D_STADR. -/
theorem State.stepReady_congr (hchan : t.chan d = s.chan d) (hstadr : t.dStadr = s.dStadr) (k : ChanStep) :
    t.stepReady d k = s.stepReady d k := by
  simp only [State.stepReady, hchan, hstadr]

/-- R116: whether a channel is held is read off D_CTRL and D_PCR. -/
theorem State.chanOn_congr (hctrl : t.dCtrl = s.dCtrl) (hpcr : t.dPcr = s.dPcr) (d : Chan) :
    t.chanOn d = s.chanOn d := by
  simp only [State.chanOn, hctrl, hpcr]

end Agree

/-- Settles O54: a channel error writes nothing that another channel's enabled steps are read off. -/
theorem errorsAreLocal : Obligations.ErrorsAreLocal := by
  intro s t c d r k herr hd
  obtain ⟨others, control, addresses, -, -⟩ := herr.rest
  exact ⟨State.stepReady_congr (others d hd) addresses.dStadr k, State.chanOn_congr control.dCtrl control.dPcr d⟩

end Sys2Proof.Machine
end

section
/-! PROOFS, reset (spec/70_reset_and_hazards.md). What reset leaves in every channel, in the interrupt output and in
the parameters, and that the state it leaves meets the invariant. -/

namespace Sys2Proof.Machine

open Sys2Proof.Claims

/-! ## Every channel after reset (R151) -/

@[simp] theorem State.reset_chan (c : Chan) : State.reset.chan c = ChannelState.reset :=
  Vector.getElem_replicate c.num_lt

/-- R151, R128: no field of CHCR is set, and a Stopped channel's STR is 0. -/
theorem ChannelState.reset_chcrRead : ChannelState.reset.chcrRead = 0#32 := by
  apply BitVec.eq_of_getLsbD_eq
  intro i hi
  rw [ChannelState.chcrRead_getLsbD _ hi]
  simp [ChannelState.reset, ChannelState.active]

/-- R102: the stack is empty, so no slot has to be written. -/
theorem ChannelState.reset_slotsWritten : ChannelState.reset.SlotsWritten :=
  ⟨fun h => absurd rfl h, fun h => absurd h (by decide)⟩

theorem ChannelState.reset_inv : ChannelState.reset.Inv :=
  .of_stopped rfl ChannelState.reset_slotsWritten le_rfl ⟨rfl, rfl, rfl, rfl⟩

theorem State.reset_inv : State.reset.Inv where
  mem := reset_mem_wf
  spr := reset_spr_wf
  stat := BitVec.zero_and
  pcr := BitVec.zero_and
  chan c := by
    rw [State.reset_chan]
    exact ChannelState.reset_inv

/-- Settles O49: both memories are empty, D_STAT and D_PCR are 0, and a channel after reset owes only its empty
stack. -/
theorem resetMeetsInvariant : Obligations.ResetMeetsInvariant :=
  State.reset_inv

/-! ## Nothing moves and nothing is pending (R85, R116, R124) -/

/-- R85: every channel is Stopped. -/
theorem State.reset_stepReady (c : Chan) (k : ChanStep) : State.reset.stepReady c k = some false :=
  State.stepReady_stopped _ c (by rw [State.reset_chan]; rfl) k

/-- R116: DMAE is 0. -/
theorem State.reset_chanOn (c : Chan) : State.reset.chanOn c = false :=
  (chanOn_eq_false_iff _ c).2 (.inl rfl)

/-- R124: no status bit is set, so none is pending. -/
theorem State.reset_dmacIrq : State.reset.dmacIrq = false := by
  rw [Bool.eq_false_iff, State.dmacIrq, ne_eq, irqLevel_iff]
  rintro ⟨b, hstat, -⟩
  simp [State.reset] at hstat

/-! ## The default parameters (R8, R15, R17) -/

theorem RegBase.ps2_base_toNat (c : Chan) : (RegBase.ps2.base c).toNat = blockBases.getD c.num 0 := by
  cases c <;> rfl

/-- R15: no register of a channel's block passes the end of the 32-bit addresses. -/
theorem RegBase.ps2_block_fits (c : Chan) (r : ChanReg) :
    (RegBase.ps2.base c).toNat + (RegBase.ps2.offsets.of r).toNat < 2 ^ 32 := by
  have hbase : (RegBase.ps2.base c).toNat ≤ 0x1000D400 := by cases c <;> decide
  have hoffset : (RegBase.ps2.offsets.of r).toNat ≤ 0x50 := by cases r <;> decide
  omega

/-- R15: a channel's register stands at its offset from the base of the channel's block. -/
theorem RegBase.ps2_addr_chan (c : Chan) (r : ChanReg) :
    (RegBase.ps2.addr (.chan c r)).toNat = blockBases.getD c.num 0 + (RegBase.ps2.offsets.of r).toNat := by
  rw [RegBase.addr, BitVec.toNat_add_of_lt (RegBase.ps2_block_fits c r), RegBase.ps2_base_toNat]

theorem Config.ps2_defaultParameters : DefaultParameters Config.ps2 where
  nch := rfl
  chName := rfl
  fixedDir := rfl
  sizes := ⟨rfl, rfl⟩
  completion := ⟨rfl, rfl⟩
  block c r := (RegBase.ps2_addr_chan c r).trans (by cases r <;> rfl)
  sadr := ⟨rfl, rfl⟩
  global := ⟨rfl, rfl, rfl, rfl⟩
  outOfScope := ⟨rfl, rfl, rfl, rfl, rfl⟩

/-- Settles O50: every channel is the one channel that reset writes, a Stopped one; the global registers are read off
the reset state. -/
theorem resetState : Obligations.ResetState := by
  refine ⟨fun c k => ⟨State.reset_stepReady c k, State.reset_chanOn c⟩, fun c => ?channel, rfl, rfl, rfl, rfl, rfl, rfl,
    rfl, rfl, rfl, State.reset_dmacIrq, Config.ps2_defaultParameters⟩
  case channel =>
    rw [State.reset_chan]
    exact ⟨rfl, ChannelState.reset_chcrRead, rfl, rfl, rfl, rfl, rfl, rfl, rfl, rfl, rfl, rfl, rfl, rfl, rfl⟩

end Sys2Proof.Machine
end
